-- ==== Sys2Proof/Config.lean ====
section
/-! DEFINITION. What an instance of sha256_core fixes and the spec leaves open: `LEN_FIELD_BITS` (00_scope R8, 92 D6). -/

namespace Sys2Proof

/-- The two legal values of the parameter `LEN_FIELD_BITS` (R8). -/
inductive LenFieldBits where
  | bits32
  | bits64
  deriving DecidableEq, Repr, Inhabited

/-- `LEN_FIELD_BITS` as a number (R8). -/
def LenFieldBits.width : LenFieldBits → Nat
  | .bits32 => 32
  | .bits64 => 64

/-- The width of the register `len`: `LEN_FIELD_BITS - 3`, that is 29 or 61 (R26). -/
def LenFieldBits.counterBits (b : LenFieldBits) : Nat := b.width - 3

/-- The parameter of this instance (R8, 93 U1). It has no body that a proof could use: a theorem about the
machine holds for both values. DESIGN CHOICE (log 1), safe. -/
opaque Config.lenFieldBits : LenFieldBits

end Sys2Proof
end

