-- ==== Sys2Proof/Word.lean ====
section
/-! DEFINITION. The data words of sha256_core (00_scope R7, R11): every value is an unsigned bit vector of a stated width. -/

namespace Sys2Proof

/-- `u32`: the width of every arithmetic word (R7 `WORD_BITS`, R11). -/
abbrev Word := BitVec 32

/-- `u8`: an octet (R11, R17). -/
abbrev Byte := BitVec 8

/-- Eight words: the shape of `H`, `V`, `DG` and `IV` (R7 `STATE_WORDS`, R20). -/
abbrev Words8 := Vector Word 8

/-- One block: 64 bytes, index 0 the first in message order (R7 `BLOCK_BYTES`, R24). -/
abbrev Block := Vector Byte 64

/-- A message schedule or the round constants: 64 words (R7 `SCHED_WORDS`, `ROUNDS`, R23, R28). -/
abbrev Words64 := Vector Word 64

/-- A message: a finite sequence of bytes of any length (R17). -/
abbrev Message := List Byte

end Sys2Proof
end

