-- ==== Sys2Proof/Syntax.lean ====
section
/-! DEFINITION. The nine operations of opcode_table.json and the codes of the register `phase`. -/

namespace Sys2Proof

/-- The 3-bit register `phase` (10_state R33): what decides the next action, in place of a program counter. -/
abbrev Phase := BitVec 3

/-- The core accepts a command if one is presented (R33). -/
abbrev Phase.absorb : Phase := 0#3
/-- The core performs `PAD` at the next edge (R33). -/
abbrev Phase.pad : Phase := 1#3
/-- The core performs `LOAD` at the next edge (R33). -/
abbrev Phase.load : Phase := 2#3
/-- The core performs `ROUND` at the next edge (R33). -/
abbrev Phase.round : Phase := 3#3
/-- The core performs `UPDATE` at the next edge (R33). -/
abbrev Phase.update : Phase := 4#3
/-- The core performs `FINISH` at the next edge (R33). -/
abbrev Phase.finish : Phase := 5#3

/-- One constructor per row of opcode_table.json (30_encoding R89): four host commands (R72) and five internal
operations (R75). The only operand of the whole set is the message byte of `BYTE` (R73); the data bits of `NOP`,
`INIT` and `FINAL` are ignored (R73, R82), so those constructors carry none. -/
inductive Instr where
  | nop
  | init
  | byte (d : Byte)
  | final
  | pad
  | load
  | round
  | update
  | finish
  deriving DecidableEq, Repr

end Sys2Proof
end

