-- ==== Sys2Proof/WellFormed.lean ====
section
/-! DEFINITION. Which operation may be performed in which phase (30_encoding R74, R75). Every term of `Instr` is a
legal operation by its type: there is no illegal encoding and no illegal operand (R82). What can be ill-formed is the
pair of a phase and an operation. -/

namespace Sys2Proof

/-- The phase in which an operation is performed: commands in `P_ABSORB` (40_commands R100), each internal operation
in the phase of its own code (R75). -/
def Instr.phaseOf : Instr → Phase
  | .nop => Phase.absorb
  | .init => Phase.absorb
  | .byte _ => Phase.absorb
  | .final => Phase.absorb
  | .pad => Phase.pad
  | .load => Phase.load
  | .round => Phase.round
  | .update => Phase.update
  | .finish => Phase.finish

/-- The operation may be performed at an edge at which `phase` holds `p` (R74). -/
def Instr.wellFormedIn (p : Phase) (i : Instr) : Bool := i.phaseOf == p

end Sys2Proof
end

