-- ==== Sys2Proof/Decode.lean ====
section
/-! DEFINITION. The two encodings (30_encoding R70 to R75): the command word `CMD10` and the phase code `PHASE3`,
decoded and encoded; the rows of opcode_table.json as mask and match. -/

namespace Sys2Proof

/-- A word of one of the two formats of the opcode table (R71, R89). -/
inductive Code where
  /-- `cmd_word[9:0] = cmd_op ‖ cmd_data` (R70) -/
  | cmd10 (w : BitVec 10)
  /-- `phase[2:0]` (R75) -/
  | phase3 (p : Phase)
  deriving DecidableEq, Repr

/-- Why a word is no operation. -/
inductive DecodeError where
  /-- phase code 0, `P_ABSORB`: no internal operation, the command port is looked at (R74) -/
  | absorb
  /-- phase codes 6 and 7: reserved (R86) -/
  | reservedPhase (p : Phase)
  /-- a number of more than ten bits offered as a command word (R70: one fixed length) -/
  | notACommandWord (w : Nat)
  /-- a number of more than three bits offered as a phase code (R75) -/
  | notAPhaseCode (w : Nat)
  /-- a length no format of the table has (R71, R84) -/
  | noSuchFormat (nbits : Nat)
  deriving DecidableEq, Repr

/-- The field `op`, `cmd_word[9:8]` (R70). -/
def cmdOpOf (w : BitVec 10) : BitVec 2 := w.extractLsb' 8 2

/-- The field `data`, `cmd_word[7:0]` (R70). -/
def cmdDataOf (w : BitVec 10) : Byte := w.extractLsb' 0 8

/-- The command word made of the two ports (R70). -/
def cmdWord (op : BitVec 2) (data : Byte) : BitVec 10 := op ++ data

/-- The command a word selects (R72, R74): total, since all 1024 words are legal (R82). The data bits are the
operand of `BYTE` as they stand and are ignored otherwise (R73). -/
def decodeCommand (w : BitVec 10) : Instr :=
  if cmdOpOf w = 0b00#2 then .nop
  else if cmdOpOf w = 0b01#2 then .init
  else if cmdOpOf w = 0b10#2 then .byte (cmdDataOf w)
  else .final

/-- The internal operation a phase code selects (R75). -/
def decodePhase (p : Phase) : Except DecodeError Instr :=
  if p = Phase.pad then .ok .pad
  else if p = Phase.load then .ok .load
  else if p = Phase.round then .ok .round
  else if p = Phase.update then .ok .update
  else if p = Phase.finish then .ok .finish
  else if p = Phase.absorb then .error .absorb
  else .error (.reservedPhase p)

/-- The decoder of both formats. -/
def decode : Code → Except DecodeError Instr
  | .cmd10 w => .ok (decodeCommand w)
  | .phase3 p => decodePhase p

/-- The canonical word of an operation: data bits 0 for `NOP`, `INIT`, `FINAL` (R73), the phase code for an internal
operation (R75). -/
def encode : Instr → Code
  | .nop => .cmd10 (cmdWord 0b00#2 0)
  | .init => .cmd10 (cmdWord 0b01#2 0)
  | .byte d => .cmd10 (cmdWord 0b10#2 d)
  | .final => .cmd10 (cmdWord 0b11#2 0)
  | .pad => .phase3 0b001#3
  | .load => .phase3 0b010#3
  | .round => .phase3 0b011#3
  | .update => .phase3 0b100#3
  | .finish => .phase3 0b101#3

/-- The row's mnemonic in opcode_table.json (R89). -/
def Instr.mnemonic : Instr → String
  | .nop => "NOP"
  | .init => "INIT"
  | .byte _ => "BYTE"
  | .final => "FINAL"
  | .pad => "PAD"
  | .load => "LOAD"
  | .round => "ROUND"
  | .update => "UPDATE"
  | .finish => "FINISH"

/-- The word is in the row of opcode_table.json of this operation: `(w AND mask) == match` (R72, R75). -/
def matchesRow : Instr → Code → Bool
  | .nop, .cmd10 w => w &&& 0x300#10 == 0x000#10
  | .init, .cmd10 w => w &&& 0x300#10 == 0x100#10
  | .byte _, .cmd10 w => w &&& 0x300#10 == 0x200#10
  | .final, .cmd10 w => w &&& 0x300#10 == 0x300#10
  | .pad, .phase3 p => p &&& 0x7#3 == 0x1#3
  | .load, .phase3 p => p &&& 0x7#3 == 0x2#3
  | .round, .phase3 p => p &&& 0x7#3 == 0x3#3
  | .update, .phase3 p => p &&& 0x7#3 == 0x4#3
  | .finish, .phase3 p => p &&& 0x7#3 == 0x5#3
  | .nop, .phase3 _ => false
  | .init, .phase3 _ => false
  | .byte _, .phase3 _ => false
  | .final, .phase3 _ => false
  | .pad, .cmd10 _ => false
  | .load, .cmd10 _ => false
  | .round, .cmd10 _ => false
  | .update, .cmd10 _ => false
  | .finish, .cmd10 _ => false

/-- A number of `nbits` bits, counted in whole bytes as the host of this project numbers the table's words, as a word
of one of the two formats: up to one byte a `PHASE3` code, up to two bytes a `CMD10` word, and no bit set above the
format's own width. DESIGN CHOICE (log 10), safe: the spec stores no instruction anywhere. -/
def codeOfNat (nbits w : Nat) : Except DecodeError Code :=
  if nbits ≤ 8 then
    if w < 8 then .ok (.phase3 (BitVec.ofNat 3 w)) else .error (.notAPhaseCode w)
  else if nbits ≤ 16 then
    if w < 1024 then .ok (.cmd10 (BitVec.ofNat 10 w)) else .error (.notACommandWord w)
  else .error (.noSuchFormat nbits)

/-- The decoder on numbers: total, and it says why a number is no operation. -/
def decodeNat (nbits w : Nat) : Except DecodeError Instr :=
  match codeOfNat nbits w with
  | .ok c => decode c
  | .error e => .error e

/-- The operation the decoder reads from a word of the opcode table, `none` where it refuses. -/
def decodeTableWord (nbits w : Nat) : Option Instr :=
  match decodeNat nbits w with
  | .ok i => some i
  | .error _ => none

end Sys2Proof
end

