-- ==== Sys2Proof/Machine/State.lean ====
section
/-! DEFINITION. The state of one sha256_core instance (10_state R20, R40), the reasons a step can stop, and the state
after reset. -/

namespace Sys2Proof.Machine

/-- What the host drives on the input ports at one rising edge (10_state R34; 44_core_sequencer R185: under no
constraint). -/
structure PinSample where
  /-- `rst`: synchronous reset, active high -/
  rst : Bool
  /-- `cmd_valid`: a command is presented at this edge -/
  cmdValid : Bool
  /-- `cmd_op[1:0]` -/
  cmdOp : BitVec 2
  /-- `cmd_data[7:0]` -/
  cmdData : Byte
  deriving DecidableEq, Repr

/-- The host presents nothing: `rst = 0`, `cmd_valid = 0`. -/
def PinSample.idle : PinSample := { rst := false, cmdValid := false, cmdOp := 0, cmdData := 0 }

/-- The complete state (R20: "and nothing else"), and beside it the input ports at the coming edges. -/
structure State where
  /-- `H[0..7]`, the hash state (R21) -/
  H : Words8
  /-- `V[0..7]`, the working variables a..h (R22) -/
  V : Words8
  /-- `W[0..63]`, the message schedule (R23) -/
  W : Words64
  /-- `blk[0..63]`, the block buffer (R24) -/
  blk : Block
  /-- `fill`, the index in `blk` of the next message byte (R25) -/
  fill : BitVec 6
  /-- `len`, the message byte counter (R26): `LEN_FIELD_BITS - 3` bits of these 61 exist, and `State.lenValue` of
  Machine/Operands.lean is its value. DESIGN CHOICE (log 6), safe. -/
  len : BitVec 61
  /-- `mark`: the 0x80 marker has been written (R31) -/
  mark : Bool
  /-- `last`: `blk` holds the final block (R31) -/
  last : Bool
  /-- `fin`: the message is closed (R31) -/
  fin : Bool
  /-- `rnd`, the round index (R32) -/
  rnd : BitVec 6
  /-- `phase`, the sequencer (R33) -/
  phase : Phase
  /-- `DG[0..7]`, the digest register (R29) -/
  DG : Words8
  /-- `digest_valid` (R30) -/
  digestValid : Bool
  /-- What the host drives at the coming edges, the next edge first; past the end of the list it stays idle (R34, R185).
  The model's own field. DESIGN CHOICE (log 2), safe for a statement over every state. -/
  inputs : List PinSample
  deriving DecidableEq, Repr

/-- The hardware raises no exception of any kind and its fault set is empty (60_exceptions R200, R207): nothing raises
a fault. Safe: there is none to raise. -/
inductive Fault where
  deriving DecidableEq, Repr

/-- Why a step answers no next state. -/
inductive Refusal where
  /-- An instruction without a meaning yet, raised by an arm of `exec` that rejects it by name. Safe: the run stops.
  No arm does so. -/
  | notModelled (mnemonic : String)
  /-- `phase` holds a reserved code, 6 or 7, at an edge with `rst = 0`; raised by `step`. The spec gives no behaviour
  for it and asks for this refusal (30_encoding R86, 60_exceptions R207). Safe: the run stops. -/
  | reservedPhase (code : Phase)
  deriving DecidableEq, Repr

/-- The state after an edge with `rst = 1` (R40, 70_reset R225). The host has presented nothing further: `inputs` is
empty. DESIGN CHOICE for `inputs` only (log 2). -/
def State.reset : State where
  H := IV
  V := Vector.replicate 8 0
  W := Vector.replicate 64 0
  blk := Vector.replicate 64 0
  fill := 0
  len := 0
  mark := false
  last := false
  fin := false
  rnd := 0
  phase := Phase.absorb
  DG := Vector.replicate 8 0
  digestValid := false
  inputs := []

end Sys2Proof.Machine
end

