-- ==== Sys2Proof/Machine/WordOps.lean ====
section
/-! DEFINITION. The word operations of the spec (00_scope R12 to R14): all unsigned, all wrapping silently, no flag
(43_compression_round R159). -/

namespace Sys2Proof.Machine

/-- `add32(x, y) = (x + y) mod 2^32` (R12). -/
def add32 (x y : Word) : Word := x + y

/-- `rotr32(x, n)`, circular right rotation for 1 <= n <= 31 (R12). No rotation by 0 or 32 occurs. -/
def rotr32 (x : Word) (n : Nat) : Word := (x >>> n) ||| (x <<< (32 - n))

/-- `shr32(x, n)`, logical right shift (R12). -/
def shr32 (x : Word) (n : Nat) : Word := x >>> n

/-- `xor32` of three operands (R12, R141). -/
def xor3 (x y z : Word) : Word := x ^^^ y ^^^ z

/-- `BE32(b0, b1, b2, b3)`: the first byte is the most significant (R14, R77). -/
def be32 (b0 b1 b2 b3 : Byte) : Word := b0 ++ b1 ++ b2 ++ b3

/-- `BE64(v)`: the eight bytes of a 64-bit value, most significant first; byte k is `v[63-8k : 56-8k]` (R14, R122). -/
def be64 (v : BitVec 64) : Vector Byte 8 := Vector.ofFn fun k => v.extractLsb' (56 - 8 * k.val) 8

/-- Eight words added in pairs, each modulo 2^32 (R178, R186). -/
def addWords (x y : Words8) : Words8 := Vector.ofFn fun i => add32 x[i] y[i]

/-- The eight zero words: `DG` while no digest is held (R29), `V` at reset (R40). -/
def zeroWords : Words8 := Vector.replicate 8 0

end Sys2Proof.Machine
end

