-- ==== Sys2Proof/Machine/Operands.lean ====
section
/-! DEFINITION. The operand forms: the command word on the pins, the byte counter, the length field, the words of a
block. -/

namespace Sys2Proof.Machine

/-- The command word presented on the pins, `cmd_op ‖ cmd_data` (30_encoding R70). -/
def PinSample.word (p : PinSample) : BitVec 10 := cmdWord p.cmdOp p.cmdData

/-- A value of the byte counter modulo `2^(LEN_FIELD_BITS - 3)` (10_state R26). The first test only lets a message
under 2^29 bytes be evaluated without the parameter: both values agree there (41_padder R127). -/
def lenMod (b : LenFieldBits) (n : BitVec 61) : BitVec 61 :=
  if n.toNat < 2 ^ 29 then n
  else
    match b with
    | .bits32 => (n.setWidth 29).setWidth 61
    | .bits64 => n

/-- The value of the register `len` (R26). -/
def State.lenValue (s : State) : BitVec 61 := lenMod Config.lenFieldBits s.len

/-- `(len + 1) mod 2^(LEN_FIELD_BITS - 3)` (40_commands R103). -/
def State.lenNext (s : State) : BitVec 61 := lenMod Config.lenFieldBits (s.len + 1)

/-- The length field of a counter value: `LF = BE64(zext_64(len ‖ 0b000))` (30_encoding R78, 41_padder R122). -/
def lengthField (len : BitVec 61) : Vector Byte 8 := be64 (len ++ 0#3)

/-- `LF` of the register `len` as `PAD` sees it (R122). -/
def State.lengthField (s : State) : Vector Byte 8 := Sys2Proof.Machine.lengthField s.lenValue

/-- `Wblk(t)`, word `t` of the block: four bytes, big-endian (42_msg_schedule R142, 20_memory R53). -/
def blockWord (b : Block) (t : Fin 16) : Word :=
  be32 (b[4 * t.val]'(by omega)) (b[4 * t.val + 1]'(by omega)) (b[4 * t.val + 2]'(by omega)) (b[4 * t.val + 3]'(by omega))

end Sys2Proof.Machine
end

