-- ==== Sys2Proof/Machine/Ops.lean ====
section
/-! DEFINITION. The named operations over the registers: every change of State goes through one of them. There is no
memory to access (20_memory R50) and no exception to take or return from (60_exceptions R200, R205, R206). Within one
operation every right-hand side reads the values before the edge (00_scope R15). -/

namespace Sys2Proof.Machine

/-- What the host drives at the next edge: the head of `inputs`, idle when the list has ended (10_state R34). -/
def State.pins (s : State) : PinSample := s.inputs.headD PinSample.idle

/-- The edge has sampled its pins. -/
def State.takeEdge (s : State) : State := { s with inputs := s.inputs.tail }

/-- The reset operation: every register at its reset value (70_reset R225). What the host will drive later is not a
register and stays. -/
def State.resetRegisters (s : State) : State := { State.reset with inputs := s.inputs }

/-- `DG <- 0, digest_valid <- 0`: what `INIT`, `BYTE` and `FINAL` share (10_state R29, R30). -/
def State.clearDigest (s : State) : State := { s with DG := zeroWords, digestValid := false }

/-- `H <- IV, fill <- 0, len <- 0, fin <- 0, mark <- 0, last <- 0`: what starts a call at `INIT` and at `FINISH`
(40_commands R102, 44_core_sequencer R180). -/
def State.startCall (s : State) : State :=
  { s with H := IV, fill := 0, len := 0, fin := false, mark := false, last := false }

/-- `blk[fill] <- d`, `len` counts it (40_commands R103). -/
def State.storeByte (s : State) (d : Byte) : State :=
  { s with blk := s.blk.set s.fill.toNat d s.fill.isLt, len := s.lenNext }

/-- `fill + 1`, wrapping from 63 to 0 (10_state R25). -/
def State.advanceFill (s : State) : State := { s with fill := s.fill + 1 }

/-- `phase <- p`. -/
def State.setPhase (s : State) (p : Phase) : State := { s with phase := p }

/-- `fin <- 1` (40_commands R105). -/
def State.closeMessage (s : State) : State := { s with fin := true }

/-- A new content of the block buffer, with the padder's progress (41_padder R123). -/
def State.writeBlock (s : State) (b : Block) (mark last : Bool) : State :=
  { s with blk := b, mark := mark, last := last }

/-- `V <- v` (44_core_sequencer R176, R177). -/
def State.setV (s : State) (v : Words8) : State := { s with V := v }

/-- `rnd <- j` (10_state R32). -/
def State.setRnd (s : State) (j : BitVec 6) : State := { s with rnd := j }

/-- `W[rnd] <- w` (42_msg_schedule R143). -/
def State.storeW (s : State) (w : Word) : State := { s with W := s.W.set s.rnd.toNat w s.rnd.isLt }

/-- `H[i] <- add32(H[i], V[i])` (44_core_sequencer R178). -/
def State.foldV (s : State) : State := { s with H := addWords s.H s.V }

/-- `DG <- H, digest_valid <- 1` (44_core_sequencer R180). -/
def State.publish (s : State) : State := { s with DG := s.H, digestValid := true }

end Sys2Proof.Machine
end

