-- ==== Sys2Proof/Machine/Commands.lean ====
section
/-! DEFINITION. The host commands (40_commands): NOP, INIT, BYTE, FINAL. None raises an exception or writes a flag by
arithmetic. -/

namespace Sys2Proof.Machine

/-- `NOP`: no register changes (R101). -/
def execNop (s : State) : Host.Outcome State Fault Refusal := .next s

/-- `INIT`: start a new call and clear the digest output (R102). `blk`, `W`, `V`, `rnd` are not written. -/
def execInit (s : State) : Host.Outcome State Fault Refusal :=
  .next (s.startCall.clearDigest.setPhase Phase.absorb)

/-- `BYTE d`: append `d` to the message; the 64th byte of a block starts its compression (R103). -/
def execByte (d : Byte) (s : State) : Host.Outcome State Fault Refusal :=
  let t := (s.storeByte d).clearDigest.advanceFill
  .next (if s.fill = 63#6 then t.setPhase Phase.load else t)

/-- `FINAL`: close the message (R105). -/
def execFinal (s : State) : Host.Outcome State Fault Refusal :=
  .next (s.closeMessage.clearDigest.setPhase Phase.pad)

end Sys2Proof.Machine
end

