-- ==== Sys2Proof/Machine/Flags.lean ====
section
/-! DEFINITION. The status and control flags (10_state R30, R31) and the next phase they decide (44_core_sequencer R175).
There are no arithmetic flags and no condition codes (R32). -/

namespace Sys2Proof.Machine

/-- `last` after the first `PAD` of a call: the length field fitted, `fill <= 55` (41_padder R123). -/
def State.lengthFits (s : State) : Bool := decide (s.fill.toNat ≤ 55)

/-- The next phase at `UPDATE`, by `fin` and `last` (44_core_sequencer R178). -/
def State.phaseAfterUpdate (s : State) : Phase :=
  if s.fin = false then Phase.absorb
  else if s.last = false then Phase.pad
  else Phase.finish

/-- The next phase at `ROUND`: `P_UPDATE` after round 63 (44_core_sequencer R177). -/
def State.phaseAfterRound (s : State) : Phase :=
  if s.rnd = 63#6 then Phase.update else Phase.round

end Sys2Proof.Machine
end

