-- ==== Sys2Proof/Machine/Padder.lean ====
section
/-! DEFINITION. sha256_padder (41_padder): the operation PAD. -/

namespace Sys2Proof.Machine

/-- The block after the first `PAD` of a call: the bytes given, the marker, zeros, and the length field if it fits
(R123, `mark == 0`). -/
def firstPadBlock (b : Block) (fill : BitVec 6) (lf : Vector Byte 8) : Block :=
  Vector.ofFn fun i =>
    if i.val < fill.toNat then b[i]
    else if i.val = fill.toNat then 0x80#8
    else if h : 56 ≤ i.val ∧ fill.toNat ≤ 55 then lf[i.val - 56]'(by omega)
    else 0x00#8

/-- The block after the second `PAD` of a call: 56 zeros and the length field (R123, `mark == 1`). -/
def secondPadBlock (lf : Vector Byte 8) : Block :=
  Vector.ofFn fun i => if h : 56 ≤ i.val then lf[i.val - 56]'(by omega) else 0x00#8

/-- `PAD`: write padding into the block buffer (R123). `fill`, `len`, `fin`, `H`, `DG` are not written. -/
def execPad (s : State) : Host.Outcome State Fault Refusal :=
  .next
    ((if s.mark = false then s.writeBlock (firstPadBlock s.blk s.fill s.lengthField) true s.lengthFits
      else s.writeBlock (secondPadBlock s.lengthField) true true).setPhase Phase.load)

end Sys2Proof.Machine
end

