-- ==== Sys2Proof/Machine/Compression.lean ====
section
/-! DEFINITION. sha256_compression_round (43_compression_round): one round, a combinational function without state
(R155). That the rotations of `S0` and `S1` are right rotations is the spec's own inference (R156, 93 G5; log 8). -/

namespace Sys2Proof.Machine

/-- `S0(x)` (R156). -/
def bigSigma0 (x : Word) : Word := xor3 (rotr32 x 2) (rotr32 x 13) (rotr32 x 22)

/-- `S1(x)` (R156). -/
def bigSigma1 (x : Word) : Word := xor3 (rotr32 x 6) (rotr32 x 11) (rotr32 x 25)

/-- `Ch(e, f, g)`, bitwise choose (R157). -/
def choose (e f g : Word) : Word := (e &&& f) ^^^ (~~~e &&& g)

/-- `Maj(a, b, c)`, bitwise majority (R157). -/
def majority (a b c : Word) : Word := xor3 (a &&& b) (a &&& c) (b &&& c)

/-- `temp1` of a round (R158). -/
def temp1 (v : Words8) (k w : Word) : Word :=
  add32 (add32 (add32 (add32 v[7] (bigSigma1 v[4])) (choose v[4] v[5] v[6])) k) w

/-- `temp2` of a round (R158). -/
def temp2 (v : Words8) : Word := add32 (bigSigma0 v[0]) (majority v[0] v[1] v[2])

/-- `Round(V, k, w)`: all eight outputs from the eight inputs (R158). -/
def roundFn (v : Words8) (k w : Word) : Words8 :=
  #v[add32 (temp1 v k w) (temp2 v), v[0], v[1], v[2], add32 v[3] (temp1 v k w), v[4], v[5], v[6]]

end Sys2Proof.Machine
end

