-- ==== Sys2Proof/Machine/Schedule.lean ====
section
/-! DEFINITION. sha256_msg_schedule (42_msg_schedule): the small sigma functions and the schedule word of a round. -/

namespace Sys2Proof.Machine

/-- `s0(x)`: two rotations and a shift (R141). -/
def smallSigma0 (x : Word) : Word := xor3 (rotr32 x 7) (rotr32 x 18) (shr32 x 3)

/-- `s1(x)`: two rotations and a shift (R141). -/
def smallSigma1 (x : Word) : Word := xor3 (rotr32 x 17) (rotr32 x 19) (shr32 x 10)

/-- The expansion sum of `W[j-16]`, `W[j-15]`, `W[j-7]`, `W[j-2]`, wrapping silently (R143). -/
def expandWord (w16 w15 w7 w2 : Word) : Word :=
  add32 (add32 (add32 w16 (smallSigma0 w15)) w7) (smallSigma1 w2)

/-- `SchedWord(j)`: a block word for the first sixteen rounds, then the expansion of earlier words (R143). -/
def schedWord (j : Fin 64) (b : Block) (w : Words64) : Word :=
  if h : j.val < 16 then blockWord b ⟨j.val, h⟩
  else
    expandWord (w[j.val - 16]'(by omega)) (w[j.val - 15]'(by omega)) (w[j.val - 7]'(by omega))
      (w[j.val - 2]'(by omega))

end Sys2Proof.Machine
end

