-- ==== Sys2Proof/Machine/Sequencer.lean ====
section
/-! DEFINITION. The internal operations of sha256_core (44_core_sequencer): LOAD, ROUND, UPDATE, FINISH. -/

namespace Sys2Proof.Machine

/-- The round index `j = rnd` as an index (R177, 10_state R32). -/
def State.roundIndex (s : State) : Fin 64 := s.rnd.toFin

/-- The schedule word of this round, `SchedWord(rnd)` on the values before the edge (R177). -/
def State.roundWord (s : State) : Word := schedWord s.roundIndex s.blk s.W

/-- `LOAD`: start a block (R176). -/
def execLoad (s : State) : Host.Outcome State Fault Refusal :=
  .next (((s.setV s.H).setRnd 0).setPhase Phase.round)

/-- `ROUND`: one of the 64 rounds of a block (R177). -/
def execRound (s : State) : Host.Outcome State Fault Refusal :=
  .next
    ((((s.storeW s.roundWord).setV (roundFn s.V K[s.roundIndex] s.roundWord)).setRnd (s.rnd + 1)).setPhase
      s.phaseAfterRound)

/-- `UPDATE`: fold the working variables into the hash state (R178). -/
def execUpdate (s : State) : Host.Outcome State Fault Refusal :=
  .next (s.foldV.setPhase s.phaseAfterUpdate)

/-- `FINISH`: publish the digest and re-initialise for the next call (R180): `DG` takes the `H` from before the edge. -/
def execFinish (s : State) : Host.Outcome State Fault Refusal :=
  .next (s.publish.startCall.setPhase Phase.absorb)

end Sys2Proof.Machine
end

