-- ==== Sys2Proof/Machine/Dispatch.lean ====
section
/-! DEFINITION. One arm per row of opcode_table.json. Which operation an edge performs is decided in Machine/Fetch.lean;
an arm is the operation's register transfer (log 3). -/

namespace Sys2Proof.Machine

open Sys2Proof

def exec (i : Instr) (s : State) : Host.Outcome State Fault Refusal :=
  match i with
  | .nop => Sys2Proof.Machine.execNop s
  | .init => Sys2Proof.Machine.execInit s
  | .byte d => Sys2Proof.Machine.execByte d s
  | .final => Sys2Proof.Machine.execFinal s
  | .pad => Sys2Proof.Machine.execPad s
  | .load => Sys2Proof.Machine.execLoad s
  | .round => Sys2Proof.Machine.execRound s
  | .update => Sys2Proof.Machine.execUpdate s
  | .finish => Sys2Proof.Machine.execFinish s

end Sys2Proof.Machine
end

