-- ==== Sys2Proof/Machine/Fetch.lean ====
section
/-! DEFINITION. What happens at an edge (30_encoding R74), and where a word of the opcode table is placed so that the
next edge performs it. The hardware fetches no instruction (10_state R33): a command comes from the pins, an internal
operation from `phase`. -/

namespace Sys2Proof.Machine

/-- What one rising edge does: exactly one of these (60_exceptions R204). -/
inductive Selected where
  /-- `rst = 1` -/
  | reset
  /-- `P_ABSORB` and no command presented: no state change -/
  | idle
  /-- the accepted command, or the internal operation `phase` selects -/
  | run (i : Instr)
  /-- `phase` 6 or 7: no behaviour given (R86) -/
  | reserved (p : Phase)
  deriving DecidableEq, Repr

/-- The complete decoding of an edge, in the order of precedence of R74. While `phase` is not `P_ABSORB` the command
pins are not looked at. -/
def select (p : PinSample) (phase : Phase) : Selected :=
  if p.rst = true then .reset
  else if phase = Phase.absorb then
    if p.cmdValid = true then .run (decodeCommand p.word) else .idle
  else
    match decodePhase phase with
    | .ok i => .run i
    | .error _ => .reserved phase

/-- The pins at the next edge, replaced. -/
def State.withPins (s : State) (p : PinSample) : State := { s with inputs := p :: s.inputs.tail }

/-- The host presents a command word at the next edge, with `rst = 0` and `cmd_valid = 1`. -/
def PinSample.present (w : BitVec 10) : PinSample :=
  { rst := false, cmdValid := true, cmdOp := cmdOpOf w, cmdData := cmdDataOf w }

/-- A code placed where the next edge takes its operation from: a command word on the pins of a core that is ready; a
phase code in `phase`, with `rst = 0` at the next edge. -/
def State.place (s : State) : Code → State
  | .cmd10 w => (s.withPins (PinSample.present w)).setPhase Phase.absorb
  | .phase3 p => (s.withPins { s.pins with rst := false }).setPhase p

/-- A number of `nbits` bits placed for the next edge: up to one byte as a phase code, else as a command word
(log 10). -/
def State.placeNat (s : State) (nbits w : Nat) : State :=
  if nbits ≤ 8 then s.place (.phase3 (BitVec.ofNat 3 w)) else s.place (.cmd10 (BitVec.ofNat 10 w))

end Sys2Proof.Machine
end

