-- ==== Sys2Proof/Machine/Step.lean ====
section
/-! DEFINITION. One rising edge of `clk` (44_core_sequencer R185: exactly one deterministic step per edge). -/

namespace Sys2Proof.Machine

/-- One rising edge: sample the pins, then reset, do nothing, or perform one operation (30_encoding R74). -/
def step (s : State) : Host.Outcome State Fault Refusal :=
  match select s.pins s.phase with
  | .reset => .next s.takeEdge.resetRegisters
  | .idle => .next s.takeEdge
  | .run i => exec i s.takeEdge
  | .reserved p => .refused (.reservedPhase p)

/-- The word of an opcode-table row placed so that the next step performs it. -/
def State.withFetchWord (s : State) (nbits w : Nat) : State := s.placeNat nbits w

end Sys2Proof.Machine
end

