-- ==== Sys2Proof/Machine/Ports.lean ====
section
/-! DEFINITION. The output ports of sha256_core (10_state R34, R35), the output formats (30_encoding R76, R79, R80), and
the internal wires between the four modules (41_padder R131, 42_msg_schedule R148, 43_compression_round R155). All are
functions of the state; none carries a behaviour of its own (44_core_sequencer R181). -/

namespace Sys2Proof.Machine

/-- `cmd_ready`: the core will accept a command at the next edge (R35). -/
def State.cmdReady (s : State) : Bool := s.phase == Phase.absorb

/-- Eight words as 256 bits, word 0 in bits `[255:224]` (R79). -/
def wordsToBits (v : Words8) : BitVec 256 :=
  v[0] ++ v[1] ++ v[2] ++ v[3] ++ v[4] ++ v[5] ++ v[6] ++ v[7]

/-- Word `i` of 256 bits, `x[255-32i : 224-32i]` (R79). -/
def bitsToWords (x : BitVec 256) : Words8 := Vector.ofFn fun i => x.extractLsb' (224 - 32 * i.val) 32

/-- 64 bytes as 512 bits, byte 0 in bits `[511:504]` (R76, R80). -/
def bytesToBits (b : Vector Byte 64) : BitVec 512 :=
  BitVec.ofNat 512 (b.toList.foldl (fun acc x => 256 * acc + x.toNat) 0)

/-- The port `digest` (R35). -/
def State.digest (s : State) : BitVec 256 := wordsToBits s.DG

/-- Byte `k` of the 32-byte digest, `digest[255-8k : 248-8k]` (R79). -/
def digestByte (d : BitVec 256) (k : Fin 32) : Byte := d.extractLsb' (248 - 8 * k.val) 8

/-- Nibble `i` of the digest, counted from the most significant end (R80). -/
def nibble (d : BitVec 256) (i : Fin 64) : BitVec 4 := d.extractLsb' (252 - 4 * i.val) 4

/-- The ASCII code of a lowercase hexadecimal digit (R80; the code numbers are general knowledge, 93 G3, log 8). -/
def hexChar (v : BitVec 4) : Byte := if v.toNat ≤ 9 then 0x30#8 + v.setWidth 8 else 0x57#8 + v.setWidth 8

/-- The 64 characters of the hex string, character 0 first (R80). -/
def hexChars (d : BitVec 256) : Vector Byte 64 := Vector.ofFn fun i => hexChar (nibble d i)

/-- `HexEncode(digest)`: the characters as 512 bits, character 0 in the top byte (R80). -/
def hexEncode (d : BitVec 256) : BitVec 512 := bytesToBits (hexChars d)

/-- The port `digest_hex` (R35). -/
def State.digestHex (s : State) : BitVec 512 := hexEncode s.digest

/-- Everything the host can see (R34, R35). -/
structure Outputs where
  cmdReady : Bool
  digestValid : Bool
  digest : BitVec 256
  digestHex : BitVec 512
  deriving DecidableEq, Repr

/-- The output ports, functions of the registers alone (R35). -/
def State.outputs (s : State) : Outputs :=
  { cmdReady := s.cmdReady, digestValid := s.digestValid, digest := s.digest, digestHex := s.digestHex }

/-- The bus `block` from the padder to the schedule, `BLOCK512` (R76, R131). -/
def State.block (s : State) : BitVec 512 := bytesToBits s.blk

/-- Block word `t` as a slice of the bus, `block[511-32t : 480-32t]` (R76). -/
def busWord (x : BitVec 512) (t : Fin 16) : Word := x.extractLsb' (480 - 32 * t.val) 32

/-- The ports of sha256_padder (R131), less `clk` and `rst`. -/
structure PadderWires where
  clr : Bool
  byteEn : Bool
  byteIn : Byte
  padEn : Bool
  block : BitVec 512
  full : Bool
  last : Bool
  deriving DecidableEq, Repr

/-- The padder's wires at the next edge (R131): `clr` at an accepted `INIT` and at `FINISH`, `byte_en` at an accepted
`BYTE`. -/
def State.padderWires (s : State) : PadderWires where
  clr :=
    match select s.pins s.phase with
    | .run .init => true
    | .run .finish => true
    | _ => false
  byteEn :=
    match select s.pins s.phase with
    | .run (.byte _) => true
    | _ => false
  byteIn := s.pins.cmdData
  padEn := s.phase == Phase.pad
  block := s.block
  full := s.fill == 63#6
  last := s.last

/-- The ports of sha256_msg_schedule (R148), less `clk` and `rst`. -/
structure ScheduleWires where
  en : Bool
  j : BitVec 6
  block : BitVec 512
  w : Word
  deriving DecidableEq, Repr

/-- The schedule's wires (R148). -/
def State.scheduleWires (s : State) : ScheduleWires where
  en := s.phase == Phase.round
  j := s.rnd
  block := s.block
  w := s.roundWord

/-- The ports of sha256_compression_round (R155). -/
structure RoundWires where
  vIn : BitVec 256
  k : Word
  w : Word
  vOut : BitVec 256
  deriving DecidableEq, Repr

/-- The round module's wires: combinational, `v_out` from `v_in`, `k`, `w` (R155, R181). -/
def State.roundWires (s : State) : RoundWires where
  vIn := wordsToBits s.V
  k := K[s.roundIndex]
  w := s.roundWord
  vOut := wordsToBits (roundFn (bitsToWords (wordsToBits s.V)) K[s.roundIndex] s.roundWord)

end Sys2Proof.Machine
end

