-- ==== Sys2Proof/Machine/HostProgram.lean ====
section
/-! DEFINITION. The host that runs a command stream (30_encoding R87, R88): the lines of the textual syntax, their
expansion, what the host drives at each edge, and the text itself. The host sees only the output ports (10_state R35) and
holds each command until it is accepted (70_reset R238). The text's lexical details are a DESIGN CHOICE (log 11), safe. -/

namespace Sys2Proof.Machine

/-- What the host does next. -/
inductive HostAction where
  /-- present this word at every edge until it is accepted (R87) -/
  | present (w : BitVec 10)
  /-- present nothing for one edge (`IDLE`, R88) -/
  | idle
  /-- present nothing until `digest_valid = 1` is sampled (`WAIT`, R88) -/
  | wait
  /-- drive `rst = 1` for one edge (`RESET`, R88) -/
  | reset
  deriving DecidableEq, Repr

/-- What the host drives at the next edge, from the output ports before it, and what it still has to do after that
edge. -/
def drive (ready valid : Bool) : List HostAction → PinSample × List HostAction
  | [] => (PinSample.idle, [])
  | .present w :: rest => (PinSample.present w, if ready then rest else .present w :: rest)
  | .idle :: rest => (PinSample.idle, rest)
  | .reset :: rest => ({ PinSample.idle with rst := true }, rest)
  | .wait :: rest => if valid then drive ready valid rest else (PinSample.idle, .wait :: rest)

/-- `k` edges of the core with a host that does `acts`. -/
def hostRun : Nat → List HostAction → State → Host.Outcome State Fault Refusal
  | 0, _, s => .next s
  | k + 1, acts, s =>
    let d := drive s.cmdReady s.digestValid acts
    match step (s.withPins d.1) with
    | .next t => hostRun k d.2 t
    | .fault f => .fault f
    | .refused r => .refused r

/-- One line of a command stream (R87, R88). -/
inductive Line where
  | nop
  | init
  | byte (d : Byte)
  | final
  /-- `MSG "text"` or `MSG hex:…`, the bytes it stands for -/
  | msg (m : Message)
  | bytes (k : Nat) (d : Byte)
  | zeros (k : Nat)
  | idle (k : Nat)
  | wait
  | reset (k : Nat)
  | hash (m : Message)
  deriving DecidableEq, Repr

/-- The host action that presents a command in its canonical word (R73, R87). -/
def sendNop : HostAction := .present (cmdWord 0b00#2 0)
/-- Present `INIT`. -/
def sendInit : HostAction := .present (cmdWord 0b01#2 0)
/-- Present `BYTE d`. -/
def sendByte (d : Byte) : HostAction := .present (cmdWord 0b10#2 d)
/-- Present `FINAL`. -/
def sendFinal : HostAction := .present (cmdWord 0b11#2 0)

/-- The expansion of a line (R88). -/
def Line.expand : Line → List HostAction
  | .nop => [sendNop]
  | .init => [sendInit]
  | .byte d => [sendByte d]
  | .final => [sendFinal]
  | .msg m => m.map sendByte
  | .bytes k d => List.replicate k (sendByte d)
  | .zeros k => List.replicate k (sendByte 0)
  | .idle k => List.replicate k .idle
  | .wait => [.wait]
  | .reset k => List.replicate k .reset
  | .hash m => sendInit :: m.map sendByte ++ [sendFinal, .wait]

/-- The expansion of a whole stream. -/
def expand (p : List Line) : List HostAction := p.flatMap Line.expand

/-- The value of a hexadecimal digit, either case. -/
def hexDigit? (c : Char) : Option Nat :=
  let n := c.toNat
  if 48 ≤ n ∧ n ≤ 57 then some (n - 48)
  else if 97 ≤ n ∧ n ≤ 102 then some (n - 87)
  else if 65 ≤ n ∧ n ≤ 70 then some (n - 55)
  else none

/-- `0xNN` (R87). -/
def parseU8 : List Char → Option Byte
  | ['0', 'x', a, b] =>
    match hexDigit? a, hexDigit? b with
    | some x, some y => some (BitVec.ofNat 8 (16 * x + y))
    | _, _ => none
  | _ => none

/-- A count in decimal. -/
def parseCount (cs : List Char) : Option Nat :=
  if cs.isEmpty then none
  else
    cs.foldl
      (fun acc c =>
        match acc with
        | none => none
        | some n => if 48 ≤ c.toNat ∧ c.toNat ≤ 57 then some (10 * n + (c.toNat - 48)) else none)
      (some 0)

/-- Pairs of hexadecimal digits, first pair first (`MSG hex:`, R88). -/
def parseHexPairs : List Char → Option Message
  | [] => some []
  | [_] => none
  | a :: b :: rest =>
    match hexDigit? a, hexDigit? b, parseHexPairs rest with
    | some x, some y, some m => some (BitVec.ofNat 8 (16 * x + y) :: m)
    | _, _, _ => none

/-- The characters up to the closing quote, each as its ASCII code, and what follows (`MSG "text"`, R88). -/
def parseQuoted : List Char → Option (Message × List Char)
  | [] => none
  | c :: rest =>
    if c = '"' then some ([], rest)
    else if 128 ≤ c.toNat then none
    else
      match parseQuoted rest with
      | some (m, after) => some (BitVec.ofNat 8 c.toNat :: m, after)
      | none => none

/-- The text without its comment, `--` and what follows (R87). That a `--` inside the quotes of a text starts no comment
is the model's choice: R87 makes no exception for quotes, and R88 makes every character of the text a byte. DESIGN CHOICE
(log 11), safe. -/
def stripComment (inQuotes : Bool) : List Char → List Char
  | [] => []
  | c :: rest =>
    if !inQuotes && c == '-' && rest.head? == some '-' then []
    else c :: stripComment (if c == '"' then !inQuotes else inQuotes) rest

/-- Is the character a blank? -/
def isBlank (c : Char) : Bool := c == ' ' || c == '\t' || c == '\r'

/-- The first word of a line and what follows it. -/
def splitWord (cs : List Char) : List Char × List Char :=
  let cs := cs.dropWhile isBlank
  (cs.takeWhile (fun c => !isBlank c), (cs.dropWhile (fun c => !isBlank c)).dropWhile isBlank)

/-- The argument of `MSG` and `HASH`: `"text"` or `hex:` and digit pairs, and nothing after it (R88). -/
def parseMessage (cs : List Char) : Option Message :=
  match cs with
  | '"' :: rest =>
    match parseQuoted rest with
    | some (m, after) => if after.all isBlank then some m else none
    | none => none
  | 'h' :: 'e' :: 'x' :: ':' :: rest =>
    let w := splitWord rest
    if w.2.isEmpty then parseHexPairs w.1 else none
  | _ => none

/-- A line's mnemonic and argument text as a `Line` (R87, R88). -/
def parseCommand (w arg : List Char) : Option Line :=
  let a := splitWord arg
  let b := splitWord a.2
  if w = "NOP".toList then (if arg.isEmpty then some .nop else none)
  else if w = "INIT".toList then (if arg.isEmpty then some .init else none)
  else if w = "FINAL".toList then (if arg.isEmpty then some .final else none)
  else if w = "WAIT".toList then (if arg.isEmpty then some .wait else none)
  else if w = "BYTE".toList then (if a.2.isEmpty then (parseU8 a.1).map .byte else none)
  else if w = "IDLE".toList then (if a.2.isEmpty then (parseCount a.1).map .idle else none)
  else if w = "RESET".toList then (if a.2.isEmpty then (parseCount a.1).map .reset else none)
  else if w = "ZEROS".toList then (if a.2.isEmpty then (parseCount a.1).map .zeros else none)
  else if w = "BYTES".toList then
    if b.2.isEmpty then
      match parseCount a.1, parseU8 b.1 with
      | some k, some d => some (.bytes k d)
      | _, _ => none
    else none
  else if w = "MSG".toList then (parseMessage arg).map .msg
  else if w = "HASH".toList then (parseMessage arg).map .hash
  else none

/-- One line of text: a comment or blank line stands for nothing, an index `@k` in front is skipped (R87). The outer
`none` says that the text is no line of the syntax. -/
def parseLine (cs : List Char) : Option (List Line) :=
  let w := splitWord (stripComment false cs)
  let c := if w.1.head? == some '@' then splitWord w.2 else w
  if c.1.isEmpty then some [] else (parseCommand c.1 c.2).map fun l => [l]

/-- The lines of a text. -/
def splitLines : List Char → List (List Char)
  | [] => [[]]
  | c :: rest =>
    match splitLines rest with
    | [] => [[c]]
    | l :: ls => if c = '\n' then [] :: l :: ls else (c :: l) :: ls

/-- A whole command stream from its text; `none` if a line is not in the syntax. -/
def parseText (cs : List Char) : Option (List Line) :=
  (splitLines cs).foldr
    (fun l acc =>
      match parseLine l, acc with
      | some ls, some p => some (ls ++ p)
      | _, _ => none)
    (some [])

end Sys2Proof.Machine
end

