-- ==== Sys2Proof/Machine/Reference.lean ====
section
/-! DEFINITION. The pure functions the core computes (INDEX "Reading order"): `Pad` (41_padder R121), `Blocks` (R128),
`Sched` (42_msg_schedule R144), `Rounds64` (44_core_sequencer R182), `Compress` (R186), `Digest`, `HexDigest` (R187), and
the counts N(n) (R124) and T(n) (70_reset R240). They are DA's whole-buffer algorithm, apart from the machine. -/

namespace Sys2Proof.Machine

/-- `z = (55 - n) mod 64`, the number of zero bytes of the padding (R121). -/
def padZeros (n : Nat) : Nat := ((55 - (n : Int)) % 64).toNat

/-- `LF = BE64((8 * n) mod 2^LEN_FIELD_BITS)` (R121). -/
def lengthBytes (b : LenFieldBits) (n : Nat) : List Byte := (be64 (BitVec.ofNat 64 (8 * n % 2 ^ b.width))).toList

/-- `Pad(M)` (R121). -/
def pad (b : LenFieldBits) (m : Message) : Message :=
  m ++ 0x80#8 :: List.replicate (padZeros m.length) 0x00#8 ++ lengthBytes b m.length

/-- Block `i` of a byte string, `P[64i .. 64i+63]` (R128). -/
def blockAt (p : Message) (i : Nat) : Block := Vector.ofFn fun k => p.getD (64 * i + k.val) 0

/-- `Blocks(P)` of a byte string whose length is a multiple of 64 (R128). -/
def blocks (p : Message) : List Block := (List.range (p.length / 64)).map (blockAt p)

/-- The first `k` words of `Sched(B)`, each from the block or from earlier words (R144). -/
def schedList (b : Block) : Nat → List Word
  | 0 => []
  | k + 1 =>
    let w := schedList b k
    w ++ [if h : k < 16 then blockWord b ⟨k, h⟩
      else expandWord (w.getD (k - 16) 0) (w.getD (k - 15) 0) (w.getD (k - 7) 0) (w.getD (k - 2) 0)]

/-- `Sched(B)`, the whole schedule of a block (R144). -/
def sched (b : Block) : Words64 :=
  let w := schedList b 64
  Vector.ofFn fun t => w.getD t.val 0

/-- `V_k` of R182: the start vector after `k` rounds. -/
def roundsUpTo (v : Words8) (w : Words64) : Nat → Words8
  | 0 => v
  | j + 1 => roundFn (roundsUpTo v w j) K[Fin.ofNat 64 j] w[Fin.ofNat 64 j]

/-- `Rounds64(V0, w)` (R182). -/
def rounds64 (v : Words8) (w : Words64) : Words8 := roundsUpTo v w 64

/-- `Compress(Hin, B)` (R186). -/
def compress (h : Words8) (b : Block) : Words8 := addWords h (rounds64 h (sched b))

/-- `Digest(M)`, eight words (R187). -/
def digestOf (b : LenFieldBits) (m : Message) : Words8 := (blocks (pad b m)).foldl compress IV

/-- `HexDigest(M)`, 64 characters (R187). -/
def hexDigest (b : LenFieldBits) (m : Message) : Vector Byte 64 := hexChars (wordsToBits (digestOf b m))

/-- `N(n)`, the number of blocks compressed for a message of `n` bytes (R124). -/
def blockCount (n : Nat) : Nat := n / 64 + if n % 64 ≤ 55 then 1 else 2

/-- The busy edges after an accepted `FINAL`: 68 when `fill <= 55`, else 135 (R106, R240). -/
def finalEdges (r : Nat) : Nat := if r ≤ 55 then 68 else 135

/-- `T(n)`: edges from the one that accepts the first command of a call to its `FINISH` edge inclusive, for a host that
presents every command at the first edge at which the core is ready (R240). -/
def callEdges (n : Nat) : Nat := n + 66 * (n / 64) + 1 + 67 * (if n % 64 ≤ 55 then 1 else 2) + 1

end Sys2Proof.Machine
end

