-- ==== Sys2Proof/Safety.lean ====
section
/-! DEFINITION. The terms claims use: the invariant of the registers (10_state R39 and what it rests on), a fresh call,
runs of edges, the accepted commands of a run, and what of the state no later result may depend on. -/

namespace Sys2Proof.Machine

/-- What holds of the registers at every edge after reset. The first four are 10_state R39 (i) to (iv); the others are
what the rules cited with each imply, and make the whole inductive. -/
structure State.Inv (s : State) : Prop where
  /-- R39 (i) -/
  digest_clear : s.digestValid = false → s.DG = zeroWords
  /-- R39 (ii) -/
  digest_held : s.digestValid = true → s.phase = Phase.absorb ∧ s.fill = 0 ∧ s.len = 0 ∧ s.H = IV
  /-- R39 (iii) -/
  ready : s.phase = Phase.absorb → s.fin = false ∧ s.mark = false ∧ s.last = false ∧ s.rnd = 0
  /-- R39 (iv) -/
  phase_legal : s.phase ≠ 6 ∧ s.phase ≠ 7
  /-- R26: `len` has `LEN_FIELD_BITS - 3` bits -/
  len_fits : s.len.toNat < 2 ^ Config.lenFieldBits.counterBits
  /-- R32: `rnd = 0` whenever `phase` is not `P_ROUND` -/
  rnd_zero : s.phase ≠ Phase.round → s.rnd = 0
  /-- R31, R175: padding only after `FINAL` -/
  message_open : s.fin = false → s.mark = false ∧ s.last = false ∧ s.phase ≠ Phase.pad ∧ s.phase ≠ Phase.finish
  /-- R103: a block is compressed in mid-message only when it is full -/
  block_full : s.fin = false → s.phase ≠ Phase.absorb → s.fill = 0
  /-- R123: after `FINAL` the first operation is `PAD` -/
  marker_written : s.fin = true → s.phase ≠ Phase.pad → s.mark = true
  /-- R175: no `PAD` after the last block -/
  pad_not_last : s.phase = Phase.pad → s.last = false
  /-- R123: a second block only when the length field did not fit -/
  second_pad : s.mark = true → s.last = true ∨ 56 ≤ s.fill.toNat
  /-- R178: `FINISH` only after the last block -/
  finish_last : s.phase = Phase.finish → s.last = true

/-- The state of a fresh call (40_commands R106, R228): what reset, `INIT` and `FINISH` leave, less what no later result
depends on. -/
structure State.Fresh (s : State) : Prop where
  phase_absorb : s.phase = Phase.absorb
  hash_iv : s.H = IV
  fill_zero : s.fill = 0
  len_zero : s.len = 0
  flags_zero : s.fin = false ∧ s.mark = false ∧ s.last = false

/-- `k` edges. -/
def run : Nat → State → Host.Outcome State Fault Refusal
  | 0, s => .next s
  | k + 1, s =>
    match step s with
    | .next t => run k t
    | .fault f => .fault f
    | .refused r => .refused r

/-- `rst = 0` at each of the next `k` edges. -/
def State.noReset (k : Nat) (s : State) : Prop := ∀ p ∈ s.inputs.take k, p.rst = false

/-- The command accepted at the next edge, if any (40_commands R100). -/
def State.accepts (s : State) : Option Instr :=
  if s.pins.rst = false ∧ s.pins.cmdValid = true ∧ s.phase = Phase.absorb then some (decodeCommand s.pins.word)
  else none

/-- The commands other than `NOP` accepted at the next `k` edges, in order (40_commands R107, 10_state R37). -/
def acceptedIn : Nat → State → List Instr
  | 0, _ => []
  | k + 1, s =>
    (s.accepts.filter (fun i => i != .nop)).toList ++
      match step s with
      | .next t => acceptedIn k t
      | .fault _ => []
      | .refused _ => []

/-- The command sequence of one call: the bytes of the message, then `FINAL` (40_commands R107). -/
def callOf (m : Message) : List Instr := m.map Instr.byte ++ [Instr.final]

/-- The same but for what the host will drive. -/
def State.sameRegisters (s t : State) : Prop := { s with inputs := [] } = { t with inputs := [] }

/-- The same but for the registers that are never scrubbed and may never influence a later digest: `blk`, `W`, `V`
(10_state R38). -/
def State.sameButResidue (s t : State) : Prop :=
  { s with blk := t.blk, W := t.W, V := t.V } = t

end Sys2Proof.Machine
end

