-- ==== Sys2Proof/Certificates/Slice0/Obligations.lean ====
section
/-! DEFINITION. The statements for the provers, each from the rules of spec/ its docstring cites. -/

open Sys2Proof Sys2Proof.Machine

/-! ### Encoding (30_encoding) -/

/-- A few words of each format decode as the spec's tables say (R72, R75, R86; 95 V12), and so do three numbers. How a
number of bits and a value stand for a word (`decodeTableWord`) is the model's numbering, no rule of the spec (log 10). -/
def Obligations.SpecWordsDecode : Prop :=
  decode (.cmd10 0b0000000000#10) = .ok .nop ∧ decode (.cmd10 0b0011111111#10) = .ok .nop ∧
  decode (.cmd10 0b0100000000#10) = .ok .init ∧ decode (.cmd10 0b0110100101#10) = .ok .init ∧
  decode (.cmd10 0b1001100001#10) = .ok (.byte 0x61#8) ∧ decode (.cmd10 0b1011111111#10) = .ok (.byte 0xff#8) ∧
  decode (.cmd10 0b1100000000#10) = .ok .final ∧ decode (.cmd10 0b1111111111#10) = .ok .final ∧
  decode (.phase3 0b001#3) = .ok .pad ∧ decode (.phase3 0b010#3) = .ok .load ∧
  decode (.phase3 0b011#3) = .ok .round ∧ decode (.phase3 0b100#3) = .ok .update ∧
  decode (.phase3 0b101#3) = .ok .finish ∧
  decodeTableWord 16 0x280 = some (.byte 0x80#8) ∧ decodeTableWord 8 0x3 = some .round ∧
  decodeTableWord 8 0x6 = none

/-- Decoding the canonical word of an operation gives the operation back, with every value of its operand (R70, R72, R73,
R75), and so does a number that stands for that word. How a number of bits and a value stand for a word (`codeOfNat`,
`decodeTableWord`) is the model's numbering, no rule of the spec (log 10). -/
def Obligations.DecodeOfEncode : Prop :=
  ∀ i : Instr, decode (encode i) = .ok i ∧
    ∃ nbits w, codeOfNat nbits w = .ok (encode i) ∧ decodeTableWord nbits w = some i

/-- Every one of the 1024 command words decodes to an operation, and the rows of the table whose match and mask it
meets are exactly the one row of that operation (R72). -/
def Obligations.EveryCommandWordHasOneRow : Prop :=
  ∀ w : BitVec 10, ∃ i, decode (.cmd10 w) = .ok i ∧
    ∀ j : Instr, matchesRow j (.cmd10 w) = true ↔ j.mnemonic = i.mnemonic

/-- The data bits are ignored by `NOP`, `INIT`, `FINAL` and are the operand of `BYTE` as they stand; the canonical words
have data 0 for those three (R73). -/
def Obligations.DataBitsOfCommands : Prop :=
  (∀ d : Byte, decodeCommand (cmdWord 0b00#2 d) = .nop ∧ decodeCommand (cmdWord 0b01#2 d) = .init ∧
    decodeCommand (cmdWord 0b10#2 d) = .byte d ∧ decodeCommand (cmdWord 0b11#2 d) = .final) ∧
  encode .nop = .cmd10 0x000#10 ∧ encode .init = .cmd10 0x100#10 ∧ encode .final = .cmd10 0x300#10 ∧
  ∀ d : Byte, encode (.byte d) = .cmd10 (0x200#10 + d.setWidth 10)

/-- A phase code decodes to the internal operation whose row it meets, to none at `P_ABSORB`, and is refused by name at
the two reserved codes (R75, R86; the name of the refusal is the model's, log 5). -/
def Obligations.PhaseCodesDecode : Prop :=
  ∀ p : Phase, (∀ i, decode (.phase3 p) = .ok i ↔ matchesRow i (.phase3 p) = true) ∧
    (decode (.phase3 p) = .error .absorb ↔ p = 0#3) ∧
    (decode (.phase3 p) = .error (.reservedPhase p) ↔ p = 6#3 ∨ p = 7#3)

/-! ### The edge -/

/-- The order of precedence at an edge (R74): reset, then in `P_ABSORB` nothing or the presented command, else the
operation the phase code selects. What the step adds around the operation is that the sample of the pins is taken off
`inputs` (the model's form of the host, log 2). -/
def Obligations.StepFollowsTheOrderOfDecoding : Prop :=
  ∀ s : State,
    (s.pins.rst = true → step s = .next { State.reset with inputs := s.inputs.tail }) ∧
    (s.pins.rst = false → s.phase = Phase.absorb → s.pins.cmdValid = false →
      step s = .next { s with inputs := s.inputs.tail }) ∧
    (∀ i, s.pins.rst = false → s.phase = Phase.absorb → s.pins.cmdValid = true →
      decode (.cmd10 (s.pins.cmdOp ++ s.pins.cmdData)) = .ok i →
      step s = exec i { s with inputs := s.inputs.tail }) ∧
    (∀ i, s.pins.rst = false → s.phase ≠ Phase.absorb → decode (.phase3 s.phase) = .ok i →
      step s = exec i { s with inputs := s.inputs.tail })

/-- A command runs only in `P_ABSORB`, an internal operation only in its own phase (R100, R204). -/
def Obligations.StepRunsOnlyOperationsOfThePhase : Prop :=
  ∀ (s : State) (i : Instr), select s.pins s.phase = .run i → i.wellFormedIn s.phase = true

/-- A reset edge puts every register at its reset value, in any phase, whatever is presented (R225, R226). -/
def Obligations.ResetEdgeRestoresEveryRegister : Prop :=
  ∀ s : State, s.pins.rst = true → ∃ t, step s = .next t ∧
    (∀ i : Fin 8, t.H[i] = IV[i] ∧ t.V[i] = 0 ∧ t.DG[i] = 0) ∧ (∀ j : Fin 64, t.W[j] = 0 ∧ t.blk[j] = 0) ∧
    t.fill = 0 ∧ t.len = 0 ∧ t.rnd = 0 ∧ t.fin = false ∧ t.mark = false ∧ t.last = false ∧ t.digestValid = false ∧
    t.phase = Phase.absorb

/-- The reset state and what the ports show in it (R40). `IV` is the table of R27. -/
def Obligations.ResetStateOfTheSpec : Prop :=
  (∀ i : Fin 8, State.reset.H[i] = IV[i] ∧ State.reset.V[i] = 0 ∧ State.reset.DG[i] = 0) ∧
  (∀ j : Fin 64, State.reset.W[j] = 0 ∧ State.reset.blk[j] = 0) ∧
  State.reset.fill = 0 ∧ State.reset.len = 0 ∧ State.reset.mark = false ∧ State.reset.last = false ∧
  State.reset.fin = false ∧ State.reset.rnd = 0 ∧ State.reset.phase = 0#3 ∧ State.reset.digestValid = false ∧
  State.reset.cmdReady = true ∧ State.reset.digest = 0 ∧
  ∀ i : Fin 64, State.reset.digestHex.extractLsb' (504 - 8 * i.val) 8 = 0x30#8

/-- `NOP` completes and changes no register; an accepted `NOP` and an edge at which nothing is presented have the same
effect, none (R101). -/
def Obligations.NopAndIdleChangeNothing : Prop :=
  ∀ s : State, s.phase = Phase.absorb →
    exec .nop s = .next s ∧
    ∀ p : PinSample, p.rst = false → p.cmdValid = false ∨ p.cmdOp = 0b00#2 →
      ∃ t, step (s.withPins p) = .next t ∧ t.sameRegisters s

/-- A word presented while the core is busy, or with `cmd_valid = 0`, is not looked at: two edges that differ only in it
have the same outcome. One presented while the core is ready is accepted at that edge (R83, R100). -/
def Obligations.WordsNotPresentedToAReadyCoreAreIgnored : Prop :=
  ∀ (s : State) (p q : PinSample), p.rst = false → q.rst = false →
    (s.phase ≠ Phase.absorb → step (s.withPins p) = step (s.withPins q) ∧ (s.withPins p).accepts = none) ∧
    (p.cmdValid = false → q.cmdValid = false →
      step (s.withPins p) = step (s.withPins q) ∧ (s.withPins p).accepts = none) ∧
    (s.phase = Phase.absorb → p.cmdValid = true →
      (s.withPins p).accepts = some (decodeCommand (p.cmdOp ++ p.cmdData)))

/-- At a reserved phase code the step stops under its own name, and a reset edge still works (R86, R74). The refusal is
the model's choice among the two treatments R86 allows (log 5). -/
def Obligations.ReservedPhaseRefusedUntilReset : Prop :=
  ∀ s : State, s.phase = 6#3 ∨ s.phase = 7#3 →
    (s.pins.rst = false → step s = .refused (.reservedPhase s.phase)) ∧
    (s.pins.rst = true → step s = .next { State.reset with inputs := s.inputs.tail })

/-- Nothing but a reserved phase code stops the core: no input and no register content is an error (R200, R207). -/
def Obligations.StepAnswersUnlessPhaseReserved : Prop :=
  ∀ s : State, (∃ t, step s = .next t) ↔ s.pins.rst = true ∨ (s.phase ≠ 6#3 ∧ s.phase ≠ 7#3)

/-! ### The operations: each completes, its values, its frame -/

/-- `INIT` (R102). -/
def Obligations.InitStartsACall : Prop :=
  ∀ s : State, s.phase = Phase.absorb → ∃ t, exec .init s = .next t ∧
    (∀ i : Fin 8, t.H[i] = IV[i] ∧ t.DG[i] = 0) ∧ t.fill = 0 ∧ t.len = 0 ∧
    t.fin = false ∧ t.mark = false ∧ t.last = false ∧ t.digestValid = false ∧ t.phase = Phase.absorb ∧
    t.blk = s.blk ∧ t.W = s.W ∧ t.V = s.V ∧ t.rnd = s.rnd

/-- `BYTE d` (R103), for any byte and any fill. -/
def Obligations.ByteIsAppended : Prop :=
  ∀ (s : State) (d : Byte), s.phase = Phase.absorb → ∃ t, exec (.byte d) s = .next t ∧
    (∀ i : Fin 64, t.blk[i] = if i.val = s.fill.toNat then d else s.blk[i]) ∧
    t.len.toNat = (s.len.toNat + 1) % 2 ^ (Config.lenFieldBits.width - 3) ∧
    (∀ i : Fin 8, t.DG[i] = 0) ∧ t.digestValid = false ∧
    (s.fill.toNat = 63 → t.fill.toNat = 0 ∧ t.phase = Phase.load) ∧
    (s.fill.toNat ≠ 63 → t.fill.toNat = s.fill.toNat + 1 ∧ t.phase = Phase.absorb) ∧
    t.H = s.H ∧ t.V = s.V ∧ t.W = s.W ∧ t.rnd = s.rnd ∧ t.fin = s.fin ∧ t.mark = s.mark ∧ t.last = s.last

/-- `FINAL` (R105). -/
def Obligations.FinalClosesTheMessage : Prop :=
  ∀ s : State, s.phase = Phase.absorb → ∃ t, exec .final s = .next t ∧
    t.fin = true ∧ (∀ i : Fin 8, t.DG[i] = 0) ∧ t.digestValid = false ∧ t.phase = Phase.pad ∧
    t.H = s.H ∧ t.V = s.V ∧ t.W = s.W ∧ t.blk = s.blk ∧ t.fill = s.fill ∧ t.len = s.len ∧ t.mark = s.mark ∧
    t.last = s.last ∧ t.rnd = s.rnd

/-- `PAD`, both visits (R123); `LF` is the field of R122, stated in `LengthFieldIsBigEndian`. -/
def Obligations.PadWritesThePadding : Prop :=
  ∀ s : State, s.phase = Phase.pad → ∃ t, exec .pad s = .next t ∧
    t.phase = Phase.load ∧ t.mark = true ∧
    (s.mark = false →
      (∀ i : Fin 64, t.blk[i] =
        if i.val < s.fill.toNat then s.blk[i]
        else if i.val = s.fill.toNat then 0x80#8
        else if 56 ≤ i.val ∧ s.fill.toNat ≤ 55 then s.lengthField[Fin.ofNat 8 (i.val - 56)]
        else 0x00#8) ∧
      (t.last = true ↔ s.fill.toNat ≤ 55)) ∧
    (s.mark = true →
      (∀ i : Fin 64, t.blk[i] = if i.val ≤ 55 then 0x00#8 else s.lengthField[Fin.ofNat 8 (i.val - 56)]) ∧
      t.last = true) ∧
    t.fill = s.fill ∧ t.len = s.len ∧ t.fin = s.fin ∧ t.H = s.H ∧ t.DG = s.DG ∧ t.digestValid = s.digestValid ∧
    t.V = s.V ∧ t.W = s.W ∧ t.rnd = s.rnd

/-- `LOAD` (R176). -/
def Obligations.LoadCopiesTheHash : Prop :=
  ∀ s : State, s.phase = Phase.load → ∃ t, exec .load s = .next t ∧
    (∀ i : Fin 8, t.V[i] = s.H[i]) ∧ t.rnd = 0 ∧ t.phase = Phase.round ∧
    t.H = s.H ∧ t.W = s.W ∧ t.blk = s.blk ∧ t.fill = s.fill ∧ t.len = s.len ∧ t.mark = s.mark ∧ t.last = s.last ∧
    t.fin = s.fin ∧ t.DG = s.DG ∧ t.digestValid = s.digestValid

/-- `ROUND` (R177), at every round index: the schedule word is stored, the working variables take one round, `rnd` counts
modulo 64. -/
def Obligations.RoundPerformsOneRound : Prop :=
  ∀ (s : State) (j : Fin 64), s.phase = Phase.round → s.rnd.toNat = j.val → ∃ t, exec .round s = .next t ∧
    (∀ i : Fin 64, t.W[i] = if i = j then schedWord j s.blk s.W else s.W[i]) ∧
    t.V = roundFn s.V K[j] (schedWord j s.blk s.W) ∧
    t.rnd.toNat = (j.val + 1) % 64 ∧ t.phase = (if j.val = 63 then Phase.update else Phase.round) ∧
    t.H = s.H ∧ t.blk = s.blk ∧ t.fill = s.fill ∧ t.len = s.len ∧ t.mark = s.mark ∧ t.last = s.last ∧
    t.fin = s.fin ∧ t.DG = s.DG ∧ t.digestValid = s.digestValid

/-- `UPDATE` (R178). -/
def Obligations.UpdateFoldsTheWorkingVariables : Prop :=
  ∀ s : State, s.phase = Phase.update → ∃ t, exec .update s = .next t ∧
    (∀ i : Fin 8, t.H[i].toNat = (s.H[i].toNat + s.V[i].toNat) % 2 ^ 32) ∧
    (s.fin = false → t.phase = Phase.absorb) ∧
    (s.fin = true → s.last = false → t.phase = Phase.pad) ∧
    (s.fin = true → s.last = true → t.phase = Phase.finish) ∧
    t.V = s.V ∧ t.W = s.W ∧ t.blk = s.blk ∧ t.fill = s.fill ∧ t.len = s.len ∧ t.mark = s.mark ∧ t.last = s.last ∧
    t.fin = s.fin ∧ t.rnd = s.rnd ∧ t.DG = s.DG ∧ t.digestValid = s.digestValid

/-- `FINISH` (R180): `DG` takes the `H` from before the edge. -/
def Obligations.FinishPublishesTheDigest : Prop :=
  ∀ s : State, s.phase = Phase.finish → ∃ t, exec .finish s = .next t ∧
    (∀ i : Fin 8, t.DG[i] = s.H[i] ∧ t.H[i] = IV[i]) ∧ t.digestValid = true ∧ t.fill = 0 ∧ t.len = 0 ∧
    t.fin = false ∧ t.mark = false ∧ t.last = false ∧ t.phase = Phase.absorb ∧
    t.blk = s.blk ∧ t.W = s.W ∧ t.V = s.V ∧ t.rnd = s.rnd

/-! ### The functions of the datapath -/

/-- The length field (R78): eight bytes, most significant first, of the counter value with three zero bits appended;
for a call that gave `n` bytes that is `(8 * n) mod 2^LEN_FIELD_BITS`, for every `n`; with `LEN_FIELD_BITS = 32` the
first four bytes are zero. -/
def Obligations.LengthFieldIsBigEndian : Prop :=
  (∀ (s : State) (k : Fin 8), s.lengthField[k].toNat =
    8 * (s.len.toNat % 2 ^ (Config.lenFieldBits.width - 3)) / 256 ^ (7 - k.val) % 256) ∧
  (∀ (s : State) (n : Nat), s.len.toNat = n % 2 ^ (Config.lenFieldBits.width - 3) →
    s.lengthField.toList = lengthBytes Config.lenFieldBits n) ∧
  ∀ (n : BitVec 61) (k : Fin 8), k.val < 4 → (lengthField (lenMod .bits32 n))[k] = 0

/-- The schedule word of a round: a big-endian block word, or the wrapping sum of four terms, and `ROUND` stores
it (R142, R143). -/
def Obligations.ScheduleWordOfRound : Prop :=
  ∀ (b : Block) (w : Words64),
    (∀ j : Fin 16, schedWord (Fin.ofNat 64 j.val) b w =
      b[4 * j.val] ++ b[4 * j.val + 1] ++ b[4 * j.val + 2] ++ b[4 * j.val + 3]) ∧
    (∀ (j : Fin 64) (_ : 16 ≤ j.val), (schedWord j b w).toNat =
      ((w[j.val - 16]'(by omega)).toNat + (smallSigma0 (w[j.val - 15]'(by omega))).toNat +
        (w[j.val - 7]'(by omega)).toNat + (smallSigma1 (w[j.val - 2]'(by omega))).toNat) % 2 ^ 32) ∧
    ∀ s t : State, exec .round s = .next t → t.W[s.roundIndex] = schedWord s.roundIndex s.blk s.W

/-- The round function (R158), in the spec's own names. -/
def Obligations.RoundFunctionFormula : Prop :=
  ∀ a b c d e f g h k w : Word,
    let t1 := h + bigSigma1 e + choose e f g + k + w
    let t2 := bigSigma0 a + majority a b c
    roundFn #v[a, b, c, d, e, f, g, h] k w = #v[t1 + t2, a, b, c, d + t1, e, f, g]

/-- The two functions of the schedule: two right rotations and a right shift each (R141). -/
def Obligations.SmallSigmaFunctions : Prop :=
  ∀ x : Word,
    smallSigma0 x = x.rotateRight 7 ^^^ x.rotateRight 18 ^^^ (x >>> 3) ∧
    smallSigma1 x = x.rotateRight 17 ^^^ x.rotateRight 19 ^^^ (x >>> 10)

/-- The two functions of the round: three right rotations each (R156). That they turn right is the spec's own inference
from DA's digests (R156, 90 C5, 93 G5; log 8). -/
def Obligations.BigSigmaFunctions : Prop :=
  ∀ x : Word,
    bigSigma0 x = x.rotateRight 2 ^^^ x.rotateRight 13 ^^^ x.rotateRight 22 ∧
    bigSigma1 x = x.rotateRight 6 ^^^ x.rotateRight 11 ^^^ x.rotateRight 25

/-- The word operations: a sum modulo 2^32, a rotation that moves every bit `n` places down and around, a shift that
brings zeros in at the top, AND and XOR bit by bit, a complement within 32 bits, and sums of several terms in any order (R12). -/
def Obligations.WordOperations : Prop :=
  ∀ (x y z : Word) (n i : Nat), 1 ≤ n → n ≤ 31 → i < 32 →
    (add32 x y).toNat = (x.toNat + y.toNat) % 2 ^ 32 ∧
    (rotr32 x n).toNat = x.toNat / 2 ^ n ||| x.toNat * 2 ^ (32 - n) % 2 ^ 32 ∧
    (rotr32 x n).getLsbD i = x.getLsbD ((i + n) % 32) ∧
    (shr32 x n).toNat = x.toNat / 2 ^ n ∧
    (x &&& y).getLsbD i = (x.getLsbD i && y.getLsbD i) ∧
    (xor3 x y z).getLsbD i = (x.getLsbD i ^^ y.getLsbD i ^^ z.getLsbD i) ∧
    (~~~x).toNat = 2 ^ 32 - 1 - x.toNat ∧
    add32 (add32 x y) z = add32 x (add32 y z) ∧ add32 x y = add32 y x

/-- Choose and majority, bit by bit (R157). -/
def Obligations.ChooseAndMajorityBitwise : Prop :=
  ∀ (x y z : Word) (i : Nat), i < 32 →
    (choose x y z).getLsbD i = (if x.getLsbD i then y.getLsbD i else z.getLsbD i) ∧
    ((majority x y z).getLsbD i = true ↔
      2 ≤ (x.getLsbD i).toNat + (y.getLsbD i).toNat + (z.getLsbD i).toNat)

/-- Four bytes as a word and back, most significant first (R77). -/
def Obligations.BigEndianWords : Prop :=
  ∀ b0 b1 b2 b3 : Byte,
    (be32 b0 b1 b2 b3).toNat = b0.toNat * 2 ^ 24 + b1.toNat * 2 ^ 16 + b2.toNat * 2 ^ 8 + b3.toNat ∧
    (be32 b0 b1 b2 b3).extractLsb' 24 8 = b0 ∧ (be32 b0 b1 b2 b3).extractLsb' 16 8 = b1 ∧
    (be32 b0 b1 b2 b3).extractLsb' 8 8 = b2 ∧ (be32 b0 b1 b2 b3).extractLsb' 0 8 = b3

/-! ### Frames and whole-machine rules -/

/-- Which operations write which register: every other one leaves it as it was (10_state R21 to R26, R29 to R33; 20_memory
R51). `BYTE` writes no byte of the block buffer but the one at `fill`, `ROUND` no schedule word but the one at `rnd`. -/
def Obligations.EachRegisterHasItsWriters : Prop :=
  ∀ (i : Instr) (s t : State), exec i s = .next t →
    (i.mnemonic ∉ ["INIT", "UPDATE", "FINISH"] → t.H = s.H) ∧
    (i.mnemonic ∉ ["LOAD", "ROUND"] → t.V = s.V ∧ t.rnd = s.rnd) ∧
    (i.mnemonic ∉ ["ROUND"] → t.W = s.W) ∧
    (∀ j : Fin 64, j.val ≠ s.rnd.toNat → t.W[j] = s.W[j]) ∧
    (i.mnemonic ∉ ["BYTE", "PAD"] → t.blk = s.blk) ∧
    (∀ j : Fin 64, i.mnemonic = "BYTE" → j.val ≠ s.fill.toNat → t.blk[j] = s.blk[j]) ∧
    (i.mnemonic ∉ ["INIT", "BYTE", "FINISH"] → t.fill = s.fill ∧ t.len = s.len) ∧
    (i.mnemonic ∉ ["INIT", "PAD", "FINISH"] → t.mark = s.mark ∧ t.last = s.last) ∧
    (i.mnemonic ∉ ["INIT", "FINAL", "FINISH"] → t.fin = s.fin) ∧
    (i.mnemonic ∉ ["INIT", "BYTE", "FINAL", "FINISH"] → t.DG = s.DG ∧ t.digestValid = s.digestValid) ∧
    (i.mnemonic = "NOP" → t.phase = s.phase) ∧ t.inputs = s.inputs

/-- The transition table of `phase` (R175), and reset. -/
def Obligations.PhaseTransitions : Prop :=
  ∀ s t : State, step s = .next t →
    (s.pins.rst = true → t.phase = Phase.absorb) ∧
    (s.pins.rst = false →
      (s.phase = Phase.absorb → s.accepts = none ∨ s.accepts = some .nop ∨ s.accepts = some .init →
        t.phase = Phase.absorb) ∧
      (s.phase = Phase.absorb → ∀ d, s.accepts = some (.byte d) →
        t.phase = if s.fill.toNat = 63 then Phase.load else Phase.absorb) ∧
      (s.phase = Phase.absorb → s.accepts = some .final → t.phase = Phase.pad) ∧
      (s.phase = Phase.pad → t.phase = Phase.load) ∧
      (s.phase = Phase.load → t.phase = Phase.round) ∧
      (s.phase = Phase.round → t.phase = if s.rnd.toNat = 63 then Phase.update else Phase.round) ∧
      (s.phase = Phase.update → s.fin = false → t.phase = Phase.absorb) ∧
      (s.phase = Phase.update → s.fin = true → s.last = false → t.phase = Phase.pad) ∧
      (s.phase = Phase.update → s.fin = true → s.last = true → t.phase = Phase.finish) ∧
      (s.phase = Phase.finish → t.phase = Phase.absorb)) ∧
    t.phase ≠ 6#3 ∧ t.phase ≠ 7#3

/-- The reset state meets the invariant of the registers (R39, R40). -/
def Obligations.ResetMeetsTheInvariant : Prop := State.reset.Inv

/-- Every step keeps the invariant of the registers: R39 (i) to (iv) with the facts of R26, R31, R32, R123, R175 they
rest on, from every state that has them. -/
def Obligations.StepKeepsTheInvariant : Prop := ∀ s t : State, s.Inv → step s = .next t → t.Inv

/-- A finished digest stays on the ports over idle edges and `NOP`s, and is gone at the first accepted `INIT`, `BYTE` or
`FINAL` and at reset (R188, R237). -/
def Obligations.DigestHeldUntilTheNextCommand : Prop :=
  ∀ s t : State, s.Inv → s.digestValid = true → step s = .next t →
    (s.pins.rst = false → s.accepts = none ∨ s.accepts = some .nop → t.outputs = s.outputs ∧ t.DG = s.DG) ∧
    (s.pins.rst = true ∨ (∃ i, s.accepts = some i ∧ i ≠ .nop) → t.digestValid = false ∧ ∀ i : Fin 8, t.DG[i] = 0)

/-- Only `FINISH` makes the hash state visible: at any other edge what the digest ports show next is fixed by the phase,
the pins and what they show now, whatever `H`, `V`, `W`, `blk`, `len` and the flags hold (R21, R180, R213). -/
def Obligations.HashHiddenUntilFinish : Prop :=
  ∀ s s' t t' : State, s.phase = s'.phase → s.phase ≠ Phase.finish → s.pins = s'.pins →
    s.DG = s'.DG → s.digestValid = s'.digestValid → step s = .next t → step s' = .next t' →
    t.digest = t'.digest ∧ t.digestHex = t'.digestHex ∧ t.digestValid = t'.digestValid

/-- What is left in `blk`, `W` and `V` from earlier calls reaches no port: two fresh calls that differ only there show
the same outputs after every number of edges, whatever the host does (R38, R130, R109). -/
def Obligations.ResidueNeverReachesAPort : Prop :=
  ∀ (s s' t t' : State) (k : Nat), s.Fresh → s.sameButResidue s' → run k s = .next t → run k s' = .next t' →
    t.outputs = t'.outputs

/-- A busy core is ready again within 135 edges without reset, whatever is on the command pins (R184). -/
def Obligations.BusyCoreReturnsToReady : Prop :=
  ∀ s : State, s.Inv → s.phase ≠ Phase.absorb → s.noReset 135 →
    ∃ k t, 1 ≤ k ∧ k ≤ 135 ∧ run k s = .next t ∧ t.phase = Phase.absorb

/-! ### The core computes the digest -/

/-- One round follows the pure functions: if the schedule words so far are those of `Sched(blk)` and `V` is the start
vector after that many rounds, the same holds one round later (R144, R182). -/
def Obligations.RoundFollowsTheReference : Prop :=
  ∀ (s : State) (v0 : Words8), s.phase = Phase.round →
    s.V = roundsUpTo v0 (sched s.blk) s.rnd.toNat →
    (∀ i : Fin 64, i.val < s.rnd.toNat → s.W[i] = (sched s.blk)[i]) →
    ∃ t, exec .round s = .next t ∧ t.V = roundsUpTo v0 (sched s.blk) (s.rnd.toNat + 1) ∧
      (∀ i : Fin 64, i.val ≤ s.rnd.toNat → t.W[i] = (sched s.blk)[i]) ∧ t.blk = s.blk

/-- One block (R179): 66 edges from `P_LOAD` without reset compress the block in `blk` into `H`, from any contents of
the working registers and whatever is on the command pins. That 66 samples are off `inputs` is the model's form of the
host (log 2). -/
def Obligations.BlockIsCompressed : Prop :=
  ∀ s : State, s.phase = Phase.load → s.noReset 66 → ∃ t, run 66 s = .next t ∧
    t.H = compress s.H s.blk ∧ t.blk = s.blk ∧
    t.phase = (if s.fin = false then Phase.absorb else if s.last = false then Phase.pad else Phase.finish) ∧
    t.rnd = 0 ∧ t.fill = s.fill ∧ t.len = s.len ∧ t.mark = s.mark ∧ t.last = s.last ∧ t.fin = s.fin ∧
    t.DG = s.DG ∧ t.digestValid = s.digestValid ∧ t.inputs = s.inputs.drop 66

/-- After an accepted `FINAL` the core is busy for 68 or 135 edges, by `fill`, and then holds a digest in the state of a
fresh call (R106). -/
def Obligations.FinalRunsToAFreshCall : Prop :=
  ∀ s : State, s.accepts = some .final → s.mark = false → s.last = false →
    s.noReset (1 + finalEdges s.fill.toNat) →
    (∀ k, 1 ≤ k → k ≤ finalEdges s.fill.toNat → ∃ u, run k s = .next u ∧ u.cmdReady = false ∧ u.digestValid = false) ∧
    ∃ t, run (1 + finalEdges s.fill.toNat) s = .next t ∧ t.cmdReady = true ∧ t.digestValid = true ∧ t.Fresh

/-- What a core that is ready again holds of a message given so far (R104): its length, its last bytes, and its complete
blocks folded into `H`. The host may idle, send `NOP`s and present anything while the core is busy. -/
def Obligations.BytesOfACallAreAbsorbed : Prop :=
  ∀ (s t : State) (k : Nat) (m : Message), s.Fresh → s.noReset k → run k s = .next t →
    acceptedIn k s = m.map Instr.byte → t.phase = Phase.absorb →
    t.fill.toNat = m.length % 64 ∧ t.len.toNat = m.length % 2 ^ (Config.lenFieldBits.width - 3) ∧
    (∀ i : Fin 64, i.val < t.fill.toNat → t.blk[i] = m.getD (64 * (m.length / 64) + i.val) 0) ∧
    t.H = ((List.range (m.length / 64)).map (blockAt m)).foldl compress IV

/-- A call delivers the digest of its message (R107, R187): whatever the host does at the other edges, once the commands
accepted since the start of the call are the bytes of `m` and then `FINAL`, and the core is ready again, `DG` is
`Digest(m)`, the ports show it, and the core is in the state of a fresh call. -/
def Obligations.CallDeliversItsDigest : Prop :=
  ∀ (s t : State) (k : Nat) (m : Message), s.Fresh → s.noReset k → run k s = .next t →
    acceptedIn k s = callOf m → t.phase = Phase.absorb →
    t.DG = digestOf Config.lenFieldBits m ∧ t.digestValid = true ∧
    t.digestHex = bytesToBits (hexDigest Config.lenFieldBits m) ∧ t.Fresh

/-- The prompt host's call takes T(n) edges (R240): the digest is there after exactly that many and not before. -/
def Obligations.PromptCallTakesItsEdges : Prop :=
  ∀ (s : State) (m : Message), s.Fresh →
    (∀ k u, 1 ≤ k → k < callEdges m.length → hostRun k (m.map sendByte ++ [sendFinal]) s = .next u →
      u.digestValid = false) ∧
    ∃ t, hostRun (callEdges m.length) (m.map sendByte ++ [sendFinal]) s = .next t ∧
      t.digestValid = true ∧ t.DG = digestOf Config.lenFieldBits m

/-- The line `HASH <message>` of a command stream is `digest(input)` (R88), from every state in which the core is ready,
whatever was given before: one edge for its `INIT`, then T(n). -/
def Obligations.HashLineComputesTheDigest : Prop :=
  ∀ (s : State) (m : Message), s.Inv → s.phase = Phase.absorb →
    ∃ t, hostRun (1 + callEdges m.length) (Line.hash m).expand s = .next t ∧
      t.digestValid = true ∧ t.digestHex = bytesToBits (hexDigest Config.lenFieldBits m)

/-! ### Padding -/

/-- What `PAD` writes is what DA's whole-buffer padding has there (R126, R129): the first visit gives block `n div 64` of
`Pad(M)`, and where the length field did not fit, the second visit gives the block after it. -/
def Obligations.PadderWritesThePaddedMessage : Prop :=
  ∀ (s : State) (m : Message), s.phase = Phase.pad → s.mark = false → s.fill.toNat = m.length % 64 →
    s.len.toNat = m.length % 2 ^ (Config.lenFieldBits.width - 3) →
    (∀ i : Fin 64, i.val < s.fill.toNat → s.blk[i] = m.getD (64 * (m.length / 64) + i.val) 0) →
    ∃ t, exec .pad s = .next t ∧ t.blk = blockAt (pad Config.lenFieldBits m) (m.length / 64) ∧
      (t.last = true ↔ blockCount m.length = m.length / 64 + 1) ∧
      ∀ u : State, t.last = false → u.mark = true → u.len = t.len →
        ∃ v, exec .pad u = .next v ∧ v.blk = blockAt (pad Config.lenFieldBits m) (m.length / 64 + 1) ∧ v.last = true

/-- The padded message is N(n) blocks, `64 * ceil((n + 9) / 64)` bytes, and holds the message, the marker, zeros and the
length field in this order (R121, R124, R39). -/
def Obligations.PaddedMessageLayout : Prop :=
  ∀ (b : LenFieldBits) (m : Message),
    (pad b m).length = 64 * blockCount m.length ∧ (pad b m).length = 64 * ((m.length + 9 + 63) / 64) ∧
    (pad b m).take m.length = m ∧ (pad b m)[m.length]? = some 0x80#8 ∧
    (∀ i, m.length < i → i + 8 < (pad b m).length → (pad b m)[i]? = some 0x00#8) ∧
    (pad b m).drop ((pad b m).length - 8) = lengthBytes b m.length

/-- Both values of `LEN_FIELD_BITS` give the same digest for a message shorter than 2^29 bytes (R8, R127). -/
def Obligations.ShortMessagesIgnoreLenFieldBits : Prop :=
  ∀ m : Message, m.length < 2 ^ 29 → digestOf .bits32 m = digestOf .bits64 m

/-! ### Ports and formats -/

/-- The digest port by words and by bytes (R79). -/
def Obligations.DigestPortWordsAndBytes : Prop :=
  ∀ s : State,
    (∀ i : Fin 8, s.digest.extractLsb' (224 - 32 * i.val) 32 = s.DG[i]) ∧
    ∀ k : Fin 32, digestByte s.digest k =
      s.DG[Fin.ofNat 8 (k.val / 4)].extractLsb' (24 - 8 * (k.val % 4)) 8

/-- The hex port, character by character (R80): character `i` in bits `[511-8i : 504-8i]`, `0x30 + v` or `0x57 + v` of
nibble `i` from the most significant end. -/
def Obligations.HexPortCharacters : Prop :=
  ∀ (d : BitVec 256) (i : Fin 64),
    ((hexEncode d).extractLsb' (504 - 8 * i.val) 8).toNat =
      (if d.toNat / 16 ^ (63 - i.val) % 16 ≤ 9 then 0x30 else 0x57) + d.toNat / 16 ^ (63 - i.val) % 16

/-- Every character of the hex port is in `0-9a-f`, for every digest (R81). -/
def Obligations.HexCharactersAreLowercase : Prop :=
  ∀ (s : State) (i : Fin 64),
    (0x30 ≤ (s.digestHex.extractLsb' (504 - 8 * i.val) 8).toNat ∧
      (s.digestHex.extractLsb' (504 - 8 * i.val) 8).toNat ≤ 0x39) ∨
    (0x61 ≤ (s.digestHex.extractLsb' (504 - 8 * i.val) 8).toNat ∧
      (s.digestHex.extractLsb' (504 - 8 * i.val) 8).toNat ≤ 0x66)

/-- The hex text determines the digest (R80). -/
def Obligations.HexTextDeterminesTheDigest : Prop :=
  ∀ d d' : BitVec 256, hexEncode d = hexEncode d' → d = d'

/-- While no digest is held the digest port reads zero and the hex port sixty-four characters `0` (R35, R236). -/
def Obligations.DigestPortsZeroWhileInvalid : Prop :=
  ∀ s : State, s.Inv → s.digestValid = false →
    s.digest = 0 ∧ ∀ i : Fin 64, s.digestHex.extractLsb' (504 - 8 * i.val) 8 = 0x30#8

/-- The block bus by bytes and by words, and the schedule's word `t` is that slice of it (R76). -/
def Obligations.BlockBusBytesAndWords : Prop :=
  ∀ b : Block,
    (∀ i : Fin 64, (bytesToBits b).extractLsb' (504 - 8 * i.val) 8 = b[i]) ∧
    ∀ t : Fin 16, (bytesToBits b).extractLsb' (480 - 32 * t.val) 32
        = b[4 * t.val] ++ b[4 * t.val + 1] ++ b[4 * t.val + 2] ++ b[4 * t.val + 3] ∧
      busWord (bytesToBits b) t = blockWord b t

/-- The round module's wires carry what `ROUND` registers: `v_out` is the next `V`, and the schedule's `w` is what is
stored (R155, R181). -/
def Obligations.RoundModuleWires : Prop :=
  ∀ s t : State, exec .round s = .next t →
    s.roundWires.vOut = wordsToBits t.V ∧ s.roundWires.w = s.scheduleWires.w ∧
    t.W[s.roundIndex] = s.scheduleWires.w ∧ bitsToWords s.roundWires.vIn = s.V
end

