-- ==== Sys2Proof/Laws/State.lean ====
section
/-! SUPPORT. One lemma per field per update of State: what each named operation leaves in each register. -/

namespace Sys2Proof.Machine

variable (s : State)

@[simp] theorem State.takeEdge_H : (s.takeEdge).H = s.H := rfl
@[simp] theorem State.takeEdge_V : (s.takeEdge).V = s.V := rfl
@[simp] theorem State.takeEdge_W : (s.takeEdge).W = s.W := rfl
@[simp] theorem State.takeEdge_blk : (s.takeEdge).blk = s.blk := rfl
@[simp] theorem State.takeEdge_fill : (s.takeEdge).fill = s.fill := rfl
@[simp] theorem State.takeEdge_len : (s.takeEdge).len = s.len := rfl
@[simp] theorem State.takeEdge_mark : (s.takeEdge).mark = s.mark := rfl
@[simp] theorem State.takeEdge_last : (s.takeEdge).last = s.last := rfl
@[simp] theorem State.takeEdge_fin : (s.takeEdge).fin = s.fin := rfl
@[simp] theorem State.takeEdge_rnd : (s.takeEdge).rnd = s.rnd := rfl
@[simp] theorem State.takeEdge_phase : (s.takeEdge).phase = s.phase := rfl
@[simp] theorem State.takeEdge_DG : (s.takeEdge).DG = s.DG := rfl
@[simp] theorem State.takeEdge_digestValid : (s.takeEdge).digestValid = s.digestValid := rfl
@[simp] theorem State.takeEdge_inputs : (s.takeEdge).inputs = s.inputs.tail := rfl

@[simp] theorem State.withPins_H (p : PinSample) : (s.withPins p).H = s.H := rfl
@[simp] theorem State.withPins_V (p : PinSample) : (s.withPins p).V = s.V := rfl
@[simp] theorem State.withPins_W (p : PinSample) : (s.withPins p).W = s.W := rfl
@[simp] theorem State.withPins_blk (p : PinSample) : (s.withPins p).blk = s.blk := rfl
@[simp] theorem State.withPins_fill (p : PinSample) : (s.withPins p).fill = s.fill := rfl
@[simp] theorem State.withPins_len (p : PinSample) : (s.withPins p).len = s.len := rfl
@[simp] theorem State.withPins_mark (p : PinSample) : (s.withPins p).mark = s.mark := rfl
@[simp] theorem State.withPins_last (p : PinSample) : (s.withPins p).last = s.last := rfl
@[simp] theorem State.withPins_fin (p : PinSample) : (s.withPins p).fin = s.fin := rfl
@[simp] theorem State.withPins_rnd (p : PinSample) : (s.withPins p).rnd = s.rnd := rfl
@[simp] theorem State.withPins_phase (p : PinSample) : (s.withPins p).phase = s.phase := rfl
@[simp] theorem State.withPins_DG (p : PinSample) : (s.withPins p).DG = s.DG := rfl
@[simp] theorem State.withPins_digestValid (p : PinSample) : (s.withPins p).digestValid = s.digestValid := rfl
@[simp] theorem State.withPins_inputs (p : PinSample) : (s.withPins p).inputs = p :: s.inputs.tail := rfl

@[simp] theorem State.resetRegisters_H : (s.resetRegisters).H = IV := rfl
@[simp] theorem State.resetRegisters_V : (s.resetRegisters).V = Vector.replicate 8 0 := rfl
@[simp] theorem State.resetRegisters_W : (s.resetRegisters).W = Vector.replicate 64 0 := rfl
@[simp] theorem State.resetRegisters_blk : (s.resetRegisters).blk = Vector.replicate 64 0 := rfl
@[simp] theorem State.resetRegisters_fill : (s.resetRegisters).fill = 0 := rfl
@[simp] theorem State.resetRegisters_len : (s.resetRegisters).len = 0 := rfl
@[simp] theorem State.resetRegisters_mark : (s.resetRegisters).mark = false := rfl
@[simp] theorem State.resetRegisters_last : (s.resetRegisters).last = false := rfl
@[simp] theorem State.resetRegisters_fin : (s.resetRegisters).fin = false := rfl
@[simp] theorem State.resetRegisters_rnd : (s.resetRegisters).rnd = 0 := rfl
@[simp] theorem State.resetRegisters_phase : (s.resetRegisters).phase = Phase.absorb := rfl
@[simp] theorem State.resetRegisters_DG : (s.resetRegisters).DG = zeroWords := rfl
@[simp] theorem State.resetRegisters_digestValid : (s.resetRegisters).digestValid = false := rfl
@[simp] theorem State.resetRegisters_inputs : (s.resetRegisters).inputs = s.inputs := rfl

@[simp] theorem State.clearDigest_H : (s.clearDigest).H = s.H := rfl
@[simp] theorem State.clearDigest_V : (s.clearDigest).V = s.V := rfl
@[simp] theorem State.clearDigest_W : (s.clearDigest).W = s.W := rfl
@[simp] theorem State.clearDigest_blk : (s.clearDigest).blk = s.blk := rfl
@[simp] theorem State.clearDigest_fill : (s.clearDigest).fill = s.fill := rfl
@[simp] theorem State.clearDigest_len : (s.clearDigest).len = s.len := rfl
@[simp] theorem State.clearDigest_mark : (s.clearDigest).mark = s.mark := rfl
@[simp] theorem State.clearDigest_last : (s.clearDigest).last = s.last := rfl
@[simp] theorem State.clearDigest_fin : (s.clearDigest).fin = s.fin := rfl
@[simp] theorem State.clearDigest_rnd : (s.clearDigest).rnd = s.rnd := rfl
@[simp] theorem State.clearDigest_phase : (s.clearDigest).phase = s.phase := rfl
@[simp] theorem State.clearDigest_DG : (s.clearDigest).DG = zeroWords := rfl
@[simp] theorem State.clearDigest_digestValid : (s.clearDigest).digestValid = false := rfl
@[simp] theorem State.clearDigest_inputs : (s.clearDigest).inputs = s.inputs := rfl

@[simp] theorem State.startCall_H : (s.startCall).H = IV := rfl
@[simp] theorem State.startCall_V : (s.startCall).V = s.V := rfl
@[simp] theorem State.startCall_W : (s.startCall).W = s.W := rfl
@[simp] theorem State.startCall_blk : (s.startCall).blk = s.blk := rfl
@[simp] theorem State.startCall_fill : (s.startCall).fill = 0 := rfl
@[simp] theorem State.startCall_len : (s.startCall).len = 0 := rfl
@[simp] theorem State.startCall_mark : (s.startCall).mark = false := rfl
@[simp] theorem State.startCall_last : (s.startCall).last = false := rfl
@[simp] theorem State.startCall_fin : (s.startCall).fin = false := rfl
@[simp] theorem State.startCall_rnd : (s.startCall).rnd = s.rnd := rfl
@[simp] theorem State.startCall_phase : (s.startCall).phase = s.phase := rfl
@[simp] theorem State.startCall_DG : (s.startCall).DG = s.DG := rfl
@[simp] theorem State.startCall_digestValid : (s.startCall).digestValid = s.digestValid := rfl
@[simp] theorem State.startCall_inputs : (s.startCall).inputs = s.inputs := rfl

@[simp] theorem State.storeByte_H (d : Byte) : (s.storeByte d).H = s.H := rfl
@[simp] theorem State.storeByte_V (d : Byte) : (s.storeByte d).V = s.V := rfl
@[simp] theorem State.storeByte_W (d : Byte) : (s.storeByte d).W = s.W := rfl
@[simp] theorem State.storeByte_blk (d : Byte) : (s.storeByte d).blk = s.blk.set s.fill.toNat d s.fill.isLt := rfl
@[simp] theorem State.storeByte_fill (d : Byte) : (s.storeByte d).fill = s.fill := rfl
@[simp] theorem State.storeByte_len (d : Byte) : (s.storeByte d).len = s.lenNext := rfl
@[simp] theorem State.storeByte_mark (d : Byte) : (s.storeByte d).mark = s.mark := rfl
@[simp] theorem State.storeByte_last (d : Byte) : (s.storeByte d).last = s.last := rfl
@[simp] theorem State.storeByte_fin (d : Byte) : (s.storeByte d).fin = s.fin := rfl
@[simp] theorem State.storeByte_rnd (d : Byte) : (s.storeByte d).rnd = s.rnd := rfl
@[simp] theorem State.storeByte_phase (d : Byte) : (s.storeByte d).phase = s.phase := rfl
@[simp] theorem State.storeByte_DG (d : Byte) : (s.storeByte d).DG = s.DG := rfl
@[simp] theorem State.storeByte_digestValid (d : Byte) : (s.storeByte d).digestValid = s.digestValid := rfl
@[simp] theorem State.storeByte_inputs (d : Byte) : (s.storeByte d).inputs = s.inputs := rfl

@[simp] theorem State.advanceFill_H : (s.advanceFill).H = s.H := rfl
@[simp] theorem State.advanceFill_V : (s.advanceFill).V = s.V := rfl
@[simp] theorem State.advanceFill_W : (s.advanceFill).W = s.W := rfl
@[simp] theorem State.advanceFill_blk : (s.advanceFill).blk = s.blk := rfl
@[simp] theorem State.advanceFill_fill : (s.advanceFill).fill = s.fill + 1 := rfl
@[simp] theorem State.advanceFill_len : (s.advanceFill).len = s.len := rfl
@[simp] theorem State.advanceFill_mark : (s.advanceFill).mark = s.mark := rfl
@[simp] theorem State.advanceFill_last : (s.advanceFill).last = s.last := rfl
@[simp] theorem State.advanceFill_fin : (s.advanceFill).fin = s.fin := rfl
@[simp] theorem State.advanceFill_rnd : (s.advanceFill).rnd = s.rnd := rfl
@[simp] theorem State.advanceFill_phase : (s.advanceFill).phase = s.phase := rfl
@[simp] theorem State.advanceFill_DG : (s.advanceFill).DG = s.DG := rfl
@[simp] theorem State.advanceFill_digestValid : (s.advanceFill).digestValid = s.digestValid := rfl
@[simp] theorem State.advanceFill_inputs : (s.advanceFill).inputs = s.inputs := rfl

@[simp] theorem State.setPhase_H (p : Phase) : (s.setPhase p).H = s.H := rfl
@[simp] theorem State.setPhase_V (p : Phase) : (s.setPhase p).V = s.V := rfl
@[simp] theorem State.setPhase_W (p : Phase) : (s.setPhase p).W = s.W := rfl
@[simp] theorem State.setPhase_blk (p : Phase) : (s.setPhase p).blk = s.blk := rfl
@[simp] theorem State.setPhase_fill (p : Phase) : (s.setPhase p).fill = s.fill := rfl
@[simp] theorem State.setPhase_len (p : Phase) : (s.setPhase p).len = s.len := rfl
@[simp] theorem State.setPhase_mark (p : Phase) : (s.setPhase p).mark = s.mark := rfl
@[simp] theorem State.setPhase_last (p : Phase) : (s.setPhase p).last = s.last := rfl
@[simp] theorem State.setPhase_fin (p : Phase) : (s.setPhase p).fin = s.fin := rfl
@[simp] theorem State.setPhase_rnd (p : Phase) : (s.setPhase p).rnd = s.rnd := rfl
@[simp] theorem State.setPhase_phase (p : Phase) : (s.setPhase p).phase = p := rfl
@[simp] theorem State.setPhase_DG (p : Phase) : (s.setPhase p).DG = s.DG := rfl
@[simp] theorem State.setPhase_digestValid (p : Phase) : (s.setPhase p).digestValid = s.digestValid := rfl
@[simp] theorem State.setPhase_inputs (p : Phase) : (s.setPhase p).inputs = s.inputs := rfl

@[simp] theorem State.closeMessage_H : (s.closeMessage).H = s.H := rfl
@[simp] theorem State.closeMessage_V : (s.closeMessage).V = s.V := rfl
@[simp] theorem State.closeMessage_W : (s.closeMessage).W = s.W := rfl
@[simp] theorem State.closeMessage_blk : (s.closeMessage).blk = s.blk := rfl
@[simp] theorem State.closeMessage_fill : (s.closeMessage).fill = s.fill := rfl
@[simp] theorem State.closeMessage_len : (s.closeMessage).len = s.len := rfl
@[simp] theorem State.closeMessage_mark : (s.closeMessage).mark = s.mark := rfl
@[simp] theorem State.closeMessage_last : (s.closeMessage).last = s.last := rfl
@[simp] theorem State.closeMessage_fin : (s.closeMessage).fin = true := rfl
@[simp] theorem State.closeMessage_rnd : (s.closeMessage).rnd = s.rnd := rfl
@[simp] theorem State.closeMessage_phase : (s.closeMessage).phase = s.phase := rfl
@[simp] theorem State.closeMessage_DG : (s.closeMessage).DG = s.DG := rfl
@[simp] theorem State.closeMessage_digestValid : (s.closeMessage).digestValid = s.digestValid := rfl
@[simp] theorem State.closeMessage_inputs : (s.closeMessage).inputs = s.inputs := rfl

@[simp] theorem State.writeBlock_H (b : Block) (m l : Bool) : (s.writeBlock b m l).H = s.H := rfl
@[simp] theorem State.writeBlock_V (b : Block) (m l : Bool) : (s.writeBlock b m l).V = s.V := rfl
@[simp] theorem State.writeBlock_W (b : Block) (m l : Bool) : (s.writeBlock b m l).W = s.W := rfl
@[simp] theorem State.writeBlock_blk (b : Block) (m l : Bool) : (s.writeBlock b m l).blk = b := rfl
@[simp] theorem State.writeBlock_fill (b : Block) (m l : Bool) : (s.writeBlock b m l).fill = s.fill := rfl
@[simp] theorem State.writeBlock_len (b : Block) (m l : Bool) : (s.writeBlock b m l).len = s.len := rfl
@[simp] theorem State.writeBlock_mark (b : Block) (m l : Bool) : (s.writeBlock b m l).mark = m := rfl
@[simp] theorem State.writeBlock_last (b : Block) (m l : Bool) : (s.writeBlock b m l).last = l := rfl
@[simp] theorem State.writeBlock_fin (b : Block) (m l : Bool) : (s.writeBlock b m l).fin = s.fin := rfl
@[simp] theorem State.writeBlock_rnd (b : Block) (m l : Bool) : (s.writeBlock b m l).rnd = s.rnd := rfl
@[simp] theorem State.writeBlock_phase (b : Block) (m l : Bool) : (s.writeBlock b m l).phase = s.phase := rfl
@[simp] theorem State.writeBlock_DG (b : Block) (m l : Bool) : (s.writeBlock b m l).DG = s.DG := rfl
@[simp] theorem State.writeBlock_digestValid (b : Block) (m l : Bool) : (s.writeBlock b m l).digestValid = s.digestValid := rfl
@[simp] theorem State.writeBlock_inputs (b : Block) (m l : Bool) : (s.writeBlock b m l).inputs = s.inputs := rfl

@[simp] theorem State.setV_H (v : Words8) : (s.setV v).H = s.H := rfl
@[simp] theorem State.setV_V (v : Words8) : (s.setV v).V = v := rfl
@[simp] theorem State.setV_W (v : Words8) : (s.setV v).W = s.W := rfl
@[simp] theorem State.setV_blk (v : Words8) : (s.setV v).blk = s.blk := rfl
@[simp] theorem State.setV_fill (v : Words8) : (s.setV v).fill = s.fill := rfl
@[simp] theorem State.setV_len (v : Words8) : (s.setV v).len = s.len := rfl
@[simp] theorem State.setV_mark (v : Words8) : (s.setV v).mark = s.mark := rfl
@[simp] theorem State.setV_last (v : Words8) : (s.setV v).last = s.last := rfl
@[simp] theorem State.setV_fin (v : Words8) : (s.setV v).fin = s.fin := rfl
@[simp] theorem State.setV_rnd (v : Words8) : (s.setV v).rnd = s.rnd := rfl
@[simp] theorem State.setV_phase (v : Words8) : (s.setV v).phase = s.phase := rfl
@[simp] theorem State.setV_DG (v : Words8) : (s.setV v).DG = s.DG := rfl
@[simp] theorem State.setV_digestValid (v : Words8) : (s.setV v).digestValid = s.digestValid := rfl
@[simp] theorem State.setV_inputs (v : Words8) : (s.setV v).inputs = s.inputs := rfl

@[simp] theorem State.setRnd_H (j : BitVec 6) : (s.setRnd j).H = s.H := rfl
@[simp] theorem State.setRnd_V (j : BitVec 6) : (s.setRnd j).V = s.V := rfl
@[simp] theorem State.setRnd_W (j : BitVec 6) : (s.setRnd j).W = s.W := rfl
@[simp] theorem State.setRnd_blk (j : BitVec 6) : (s.setRnd j).blk = s.blk := rfl
@[simp] theorem State.setRnd_fill (j : BitVec 6) : (s.setRnd j).fill = s.fill := rfl
@[simp] theorem State.setRnd_len (j : BitVec 6) : (s.setRnd j).len = s.len := rfl
@[simp] theorem State.setRnd_mark (j : BitVec 6) : (s.setRnd j).mark = s.mark := rfl
@[simp] theorem State.setRnd_last (j : BitVec 6) : (s.setRnd j).last = s.last := rfl
@[simp] theorem State.setRnd_fin (j : BitVec 6) : (s.setRnd j).fin = s.fin := rfl
@[simp] theorem State.setRnd_rnd (j : BitVec 6) : (s.setRnd j).rnd = j := rfl
@[simp] theorem State.setRnd_phase (j : BitVec 6) : (s.setRnd j).phase = s.phase := rfl
@[simp] theorem State.setRnd_DG (j : BitVec 6) : (s.setRnd j).DG = s.DG := rfl
@[simp] theorem State.setRnd_digestValid (j : BitVec 6) : (s.setRnd j).digestValid = s.digestValid := rfl
@[simp] theorem State.setRnd_inputs (j : BitVec 6) : (s.setRnd j).inputs = s.inputs := rfl

@[simp] theorem State.storeW_H (w : Word) : (s.storeW w).H = s.H := rfl
@[simp] theorem State.storeW_V (w : Word) : (s.storeW w).V = s.V := rfl
@[simp] theorem State.storeW_W (w : Word) : (s.storeW w).W = s.W.set s.rnd.toNat w s.rnd.isLt := rfl
@[simp] theorem State.storeW_blk (w : Word) : (s.storeW w).blk = s.blk := rfl
@[simp] theorem State.storeW_fill (w : Word) : (s.storeW w).fill = s.fill := rfl
@[simp] theorem State.storeW_len (w : Word) : (s.storeW w).len = s.len := rfl
@[simp] theorem State.storeW_mark (w : Word) : (s.storeW w).mark = s.mark := rfl
@[simp] theorem State.storeW_last (w : Word) : (s.storeW w).last = s.last := rfl
@[simp] theorem State.storeW_fin (w : Word) : (s.storeW w).fin = s.fin := rfl
@[simp] theorem State.storeW_rnd (w : Word) : (s.storeW w).rnd = s.rnd := rfl
@[simp] theorem State.storeW_phase (w : Word) : (s.storeW w).phase = s.phase := rfl
@[simp] theorem State.storeW_DG (w : Word) : (s.storeW w).DG = s.DG := rfl
@[simp] theorem State.storeW_digestValid (w : Word) : (s.storeW w).digestValid = s.digestValid := rfl
@[simp] theorem State.storeW_inputs (w : Word) : (s.storeW w).inputs = s.inputs := rfl

@[simp] theorem State.foldV_H : (s.foldV).H = addWords s.H s.V := rfl
@[simp] theorem State.foldV_V : (s.foldV).V = s.V := rfl
@[simp] theorem State.foldV_W : (s.foldV).W = s.W := rfl
@[simp] theorem State.foldV_blk : (s.foldV).blk = s.blk := rfl
@[simp] theorem State.foldV_fill : (s.foldV).fill = s.fill := rfl
@[simp] theorem State.foldV_len : (s.foldV).len = s.len := rfl
@[simp] theorem State.foldV_mark : (s.foldV).mark = s.mark := rfl
@[simp] theorem State.foldV_last : (s.foldV).last = s.last := rfl
@[simp] theorem State.foldV_fin : (s.foldV).fin = s.fin := rfl
@[simp] theorem State.foldV_rnd : (s.foldV).rnd = s.rnd := rfl
@[simp] theorem State.foldV_phase : (s.foldV).phase = s.phase := rfl
@[simp] theorem State.foldV_DG : (s.foldV).DG = s.DG := rfl
@[simp] theorem State.foldV_digestValid : (s.foldV).digestValid = s.digestValid := rfl
@[simp] theorem State.foldV_inputs : (s.foldV).inputs = s.inputs := rfl

@[simp] theorem State.publish_H : (s.publish).H = s.H := rfl
@[simp] theorem State.publish_V : (s.publish).V = s.V := rfl
@[simp] theorem State.publish_W : (s.publish).W = s.W := rfl
@[simp] theorem State.publish_blk : (s.publish).blk = s.blk := rfl
@[simp] theorem State.publish_fill : (s.publish).fill = s.fill := rfl
@[simp] theorem State.publish_len : (s.publish).len = s.len := rfl
@[simp] theorem State.publish_mark : (s.publish).mark = s.mark := rfl
@[simp] theorem State.publish_last : (s.publish).last = s.last := rfl
@[simp] theorem State.publish_fin : (s.publish).fin = s.fin := rfl
@[simp] theorem State.publish_rnd : (s.publish).rnd = s.rnd := rfl
@[simp] theorem State.publish_phase : (s.publish).phase = s.phase := rfl
@[simp] theorem State.publish_DG : (s.publish).DG = s.H := rfl
@[simp] theorem State.publish_digestValid : (s.publish).digestValid = true := rfl
@[simp] theorem State.publish_inputs : (s.publish).inputs = s.inputs := rfl

end Sys2Proof.Machine
end

