-- ==== Sys2Proof/Laws/Ops.lean ====
section
/-! SUPPORT. One lemma per shared operation, saying what it does; proofs cite these instead of unfolding. -/

namespace Sys2Proof.Machine

variable {s t : State}

/-! ### Phase codes: simp writes each as its number, so that two codes compare by evaluation -/

@[simp] theorem Phase.absorb_eq : Phase.absorb = 0#3 := rfl
@[simp] theorem Phase.pad_eq : Phase.pad = 1#3 := rfl
@[simp] theorem Phase.load_eq : Phase.load = 2#3 := rfl
@[simp] theorem Phase.round_eq : Phase.round = 3#3 := rfl
@[simp] theorem Phase.update_eq : Phase.update = 4#3 := rfl
@[simp] theorem Phase.finish_eq : Phase.finish = 5#3 := rfl

/-- The eight codes of the three bits (10_state R33). -/
theorem Phase.cases (p : Phase) :
    p = Phase.absorb ∨ p = Phase.pad ∨ p = Phase.load ∨ p = Phase.round ∨ p = Phase.update ∨ p = Phase.finish ∨
      p = 6#3 ∨ p = 7#3 := by
  revert p; decide

/-! ### The pins -/

@[simp] theorem State.pins_withPins (s : State) (p : PinSample) : (s.withPins p).pins = p := rfl

@[simp] theorem State.takeEdge_withPins (s : State) (p : PinSample) : (s.withPins p).takeEdge = s.takeEdge := rfl

@[simp] theorem PinSample.present_word (w : BitVec 10) : (PinSample.present w).word = w := by
  revert w; decide

/-! ### The byte counter and the length field -/

/-- `lenMod` is the reduction modulo `2^(LEN_FIELD_BITS - 3)` (10_state R26). -/
theorem lenMod_toNat (b : LenFieldBits) (n : BitVec 61) : (lenMod b n).toNat = n.toNat % 2 ^ b.counterBits := by
  have hn := n.isLt
  unfold lenMod
  split
  · cases b <;> simp only [LenFieldBits.counterBits, LenFieldBits.width] <;> omega
  · cases b <;> simp [LenFieldBits.counterBits, LenFieldBits.width] <;> omega

theorem State.lenValue_toNat (s : State) :
    s.lenValue.toNat = s.len.toNat % 2 ^ Config.lenFieldBits.counterBits := lenMod_toNat _ _

/-- The counter after one more byte (40_commands R103). -/
theorem State.lenNext_toNat (s : State) :
    s.lenNext.toNat = (s.len.toNat + 1) % 2 ^ Config.lenFieldBits.counterBits := by
  have h1 : (1 : BitVec 61).toNat = 1 := rfl
  rw [State.lenNext, lenMod_toNat, BitVec.toNat_add, h1]
  cases Config.lenFieldBits <;> simp only [LenFieldBits.counterBits, LenFieldBits.width] <;> omega

@[simp] theorem LenFieldBits.counterBits_eq (b : LenFieldBits) : b.counterBits = b.width - 3 := rfl

@[simp] theorem be64_getElem (v : BitVec 64) (k : Nat) (h : k < 8) :
    (be64 v)[k] = v.extractLsb' (56 - 8 * k) 8 := by
  simp [be64]

/-! ### Arrays, entry by entry -/

@[simp] theorem addWords_getElem (x y : Words8) (i : Nat) (h : i < 8) : (addWords x y)[i] = add32 x[i] y[i] := by
  simp [addWords]

@[simp] theorem zeroWords_getElem (i : Nat) (h : i < 8) : zeroWords[i] = 0 := by
  simp [zeroWords]

/-- The byte stored is at `fill` and every other byte of the block buffer is kept (40_commands R103). -/
theorem State.storeByte_getElem (s : State) (d : Byte) (i : Nat) (h : i < 64) :
    (s.blk.set s.fill.toNat d s.fill.isLt)[i] = if i = s.fill.toNat then d else s.blk[i] := by
  rw [Vector.getElem_set]
  by_cases e : s.fill.toNat = i
  · simp [e]
  · simp [e, Ne.symm e]

/-- The word stored is at `rnd` and every other word of the schedule is kept (42_msg_schedule R143). -/
theorem State.storeW_getElem (s : State) (w : Word) (i : Nat) (h : i < 64) :
    (s.W.set s.rnd.toNat w s.rnd.isLt)[i] = if i = s.rnd.toNat then w else s.W[i] := by
  rw [Vector.getElem_set]
  by_cases e : s.rnd.toNat = i
  · simp [e]
  · simp [e, Ne.symm e]

/-- The block after the first `PAD`, byte by byte (41_padder R123). -/
theorem firstPadBlock_getElem (b : Block) (fill : BitVec 6) (lf : Vector Byte 8) (i : Nat) (h : i < 64) :
    (firstPadBlock b fill lf)[i] =
      if i < fill.toNat then b[i]
      else if i = fill.toNat then 0x80#8
      else if h' : 56 ≤ i ∧ fill.toNat ≤ 55 then lf[i - 56]'(by omega)
      else 0x00#8 := by
  simp [firstPadBlock]

/-- The block after the second `PAD`, byte by byte (41_padder R123). -/
theorem secondPadBlock_getElem (lf : Vector Byte 8) (i : Nat) (h : i < 64) :
    (secondPadBlock lf)[i] = if h' : 56 ≤ i then lf[i - 56]'(by omega) else 0x00#8 := by
  simp [secondPadBlock]

/-! ### The meanings: each answers a next state -/

theorem exec_nop (s : State) : exec .nop s = .next s := rfl

theorem exec_init (s : State) : exec .init s = .next (s.startCall.clearDigest.setPhase Phase.absorb) := rfl

theorem exec_byte_full (d : Byte) (h : s.fill = 63#6) :
    exec (.byte d) s = .next ((s.storeByte d).clearDigest.advanceFill.setPhase Phase.load) := by
  simp [exec, execByte, h]

theorem exec_byte_room (d : Byte) (h : s.fill ≠ 63#6) :
    exec (.byte d) s = .next (s.storeByte d).clearDigest.advanceFill := by
  simp [exec, execByte, h]

theorem exec_final (s : State) : exec .final s = .next (s.closeMessage.clearDigest.setPhase Phase.pad) := rfl

theorem exec_pad_first (h : s.mark = false) :
    exec .pad s =
      .next ((s.writeBlock (firstPadBlock s.blk s.fill s.lengthField) true s.lengthFits).setPhase Phase.load) := by
  simp [exec, execPad, h]

theorem exec_pad_second (h : s.mark = true) :
    exec .pad s = .next ((s.writeBlock (secondPadBlock s.lengthField) true true).setPhase Phase.load) := by
  simp [exec, execPad, h]

theorem exec_load (s : State) : exec .load s = .next (((s.setV s.H).setRnd 0).setPhase Phase.round) := rfl

theorem exec_round (s : State) :
    exec .round s =
      .next ((((s.storeW s.roundWord).setV (roundFn s.V K[s.roundIndex] s.roundWord)).setRnd (s.rnd + 1)).setPhase
        s.phaseAfterRound) := rfl

theorem exec_update (s : State) : exec .update s = .next (s.foldV.setPhase s.phaseAfterUpdate) := rfl

theorem exec_finish (s : State) : exec .finish s = .next (s.publish.startCall.setPhase Phase.absorb) := rfl

/-! ### The edge -/

@[simp] theorem decodePhase_absorb : decodePhase 0#3 = .error .absorb := rfl
@[simp] theorem decodePhase_pad : decodePhase 1#3 = .ok .pad := rfl
@[simp] theorem decodePhase_load : decodePhase 2#3 = .ok .load := rfl
@[simp] theorem decodePhase_round : decodePhase 3#3 = .ok .round := rfl
@[simp] theorem decodePhase_update : decodePhase 4#3 = .ok .update := rfl
@[simp] theorem decodePhase_finish : decodePhase 5#3 = .ok .finish := rfl
@[simp] theorem decodePhase_six : decodePhase 6#3 = .error (.reservedPhase 6#3) := rfl
@[simp] theorem decodePhase_seven : decodePhase 7#3 = .error (.reservedPhase 7#3) := rfl

/-- A phase code that selects an operation is that operation's own (30_encoding R75). -/
theorem decodePhase_ok {p : Phase} {i : Instr} (h : decodePhase p = .ok i) :
    (p = Phase.pad ∧ i = .pad) ∨ (p = Phase.load ∧ i = .load) ∨ (p = Phase.round ∧ i = .round) ∨
      (p = Phase.update ∧ i = .update) ∨ (p = Phase.finish ∧ i = .finish) := by
  rcases Phase.cases p with rfl | rfl | rfl | rfl | rfl | rfl | rfl | rfl <;> simp_all

theorem select_reset {p : PinSample} (q : Phase) (h : p.rst = true) : select p q = .reset := by
  simp [select, h]

theorem select_idle {p : PinSample} (h : p.rst = false) (hv : p.cmdValid = false) :
    select p Phase.absorb = .idle := by
  simp [select, h, hv]

theorem select_command {p : PinSample} (h : p.rst = false) (hv : p.cmdValid = true) :
    select p Phase.absorb = .run (decodeCommand p.word) := by
  simp [select, h, hv]

theorem select_operation {p : PinSample} {q : Phase} {i : Instr} (h : p.rst = false) (hi : decodePhase q = .ok i) :
    select p q = .run i := by
  have hq : q ≠ Phase.absorb := by
    rintro rfl; simp at hi
  simp only [select, h, hi, if_neg hq]
  rfl

/-- A step at which an internal operation is due (30_encoding R75). -/
theorem step_operation {i : Instr} (hr : s.pins.rst = false) (hi : decodePhase s.phase = .ok i) :
    step s = exec i s.takeEdge := by
  simp only [step, select_operation hr hi]

/-- A step at which a command is accepted (40_commands R100). -/
theorem step_command (hr : s.pins.rst = false) (hp : s.phase = Phase.absorb) (hv : s.pins.cmdValid = true) :
    step s = exec (decodeCommand s.pins.word) s.takeEdge := by
  simp only [step, hp, select_command hr hv]

/-- Every operation answers a next state (60_exceptions R200). -/
theorem exec_answers (i : Instr) (s : State) : ∃ t, exec i s = .next t := by
  cases i <;> exact ⟨_, rfl⟩

/-- Everything a step that answers a next state can have done (30_encoding R74). -/
theorem step_cases (h : step s = .next t) :
    (s.pins.rst = true ∧ t = s.takeEdge.resetRegisters) ∨
    (s.pins.rst = false ∧ s.phase = Phase.absorb ∧ s.pins.cmdValid = false ∧ t = s.takeEdge) ∨
    (s.pins.rst = false ∧ s.phase = Phase.absorb ∧ s.pins.cmdValid = true ∧
      exec (decodeCommand s.pins.word) s.takeEdge = .next t) ∨
    (s.pins.rst = false ∧ s.phase ≠ Phase.absorb ∧ ∃ i, decodePhase s.phase = .ok i ∧ exec i s.takeEdge = .next t) := by
  unfold step select at h
  by_cases hr : s.pins.rst = true
  · left; simp only [hr, if_true] at h; exact ⟨hr, by injection h with h; exact h.symm⟩
  · have hr' : s.pins.rst = false := by simpa using hr
    right
    by_cases hp : s.phase = Phase.absorb
    · by_cases hv : s.pins.cmdValid = true
      · right; left
        simp only [hr, hp, hv, if_true] at h
        exact ⟨hr', hp, hv, h⟩
      · left
        simp only [hr, hp, hv, if_true] at h
        exact ⟨hr', hp, by simpa using hv, by injection h with h; exact h.symm⟩
    · right; right
      simp only [hr, hp, if_false] at h
      refine ⟨hr', hp, ?_⟩
      cases hd : decodePhase s.phase with
      | ok i => rw [hd] at h; exact ⟨i, rfl, h⟩
      | error e => rw [hd] at h; cases h

end Sys2Proof.Machine
end

