-- ==== Sys2Proof/Laws/PerInstr.lean ====
section
/-! SUPPORT. Statements made of every instruction as syntax, one lemma per constructor. -/

/-- The canonical word of an operation is in its own row of opcode_table.json, and in no row of another mnemonic
(30_encoding R72, R75). -/
def Sys2Proof.Laws.TableRow.Statement (i : Sys2Proof.Instr) : Prop :=
  ∀ j : Sys2Proof.Instr, Sys2Proof.matchesRow j (Sys2Proof.encode i) = true ↔ j.mnemonic = i.mnemonic

namespace Sys2Proof.Laws.TableRow

theorem nop : Statement .nop := by intro j; cases j <;> simp [encode, matchesRow, cmdWord, Instr.mnemonic]

theorem init : Statement .init := by intro j; cases j <;> simp [encode, matchesRow, cmdWord, Instr.mnemonic]

theorem byte (d : Byte) : Statement (.byte d) := by
  have h : cmdWord 0b10#2 d &&& 0x300#10 = 0x200#10 := by revert d; decide
  intro j; cases j <;> simp [encode, matchesRow, h, Instr.mnemonic]

theorem final : Statement .final := by intro j; cases j <;> simp [encode, matchesRow, cmdWord, Instr.mnemonic]

theorem pad : Statement .pad := by intro j; cases j <;> simp [encode, matchesRow, Instr.mnemonic]

theorem load : Statement .load := by intro j; cases j <;> simp [encode, matchesRow, Instr.mnemonic]

theorem round : Statement .round := by intro j; cases j <;> simp [encode, matchesRow, Instr.mnemonic]

theorem update : Statement .update := by intro j; cases j <;> simp [encode, matchesRow, Instr.mnemonic]

theorem finish : Statement .finish := by intro j; cases j <;> simp [encode, matchesRow, Instr.mnemonic]

end Sys2Proof.Laws.TableRow
end

