-- ==== Sys2Proof/Laws/Reference.lean ====
section
/-! SUPPORT. The pure functions, entry by entry. -/

namespace Sys2Proof.Machine

theorem schedList_length (b : Block) (k : Nat) : (schedList b k).length = k := by
  induction k with
  | zero => rfl
  | succ k ih => simp [schedList, ih]

/-- The words already computed stay. -/
theorem schedList_getD_succ (b : Block) {j k : Nat} (h : j < k) :
    (schedList b (k + 1)).getD j 0 = (schedList b k).getD j 0 := by
  rw [schedList]
  exact List.getD_append _ _ _ _ (by rw [schedList_length]; exact h)

theorem schedList_getD_le (b : Block) {j k m : Nat} (h : j < k) (hm : k ≤ m) :
    (schedList b m).getD j 0 = (schedList b k).getD j 0 := by
  induction m, hm using Nat.le_induction with
  | base => rfl
  | succ m hm ih => rw [schedList_getD_succ b (by omega), ih]

theorem sched_get (b : Block) (j : Fin 64) : (sched b)[j] = (schedList b 64).getD j.val 0 := by
  simp [sched]

theorem roundsUpTo_zero (v : Words8) (w : Words64) : roundsUpTo v w 0 = v := rfl

theorem roundsUpTo_succ (v : Words8) (w : Words64) (j : Nat) :
    roundsUpTo v w (j + 1) = roundFn (roundsUpTo v w j) K[Fin.ofNat 64 j] w[Fin.ofNat 64 j] := rfl

theorem blockAt_get (p : Message) (i : Nat) (k : Fin 64) : (blockAt p i)[k] = p.getD (64 * i + k.val) 0 := by
  simp [blockAt]

theorem lengthBytes_length (b : LenFieldBits) (n : Nat) : (lengthBytes b n).length = 8 := by
  simp [lengthBytes]

/-- `z = (55 - n) mod 64` is below 64 and makes `n + 9 + z` a multiple of 64 (41_padder R121). -/
theorem padZeros_spec (n : Nat) : padZeros n < 64 ∧ (n + 9 + padZeros n) % 64 = 0 := by
  unfold padZeros
  omega

end Sys2Proof.Machine
end

