-- ==== Sys2Proof/Laws/Run.lean ====
section
/-! SUPPORT. Runs of edges: one edge, two parts, and the host's own run. -/

namespace Sys2Proof.Machine

theorem run_zero (s : State) : run 0 s = .next s := rfl

theorem run_succ {s t : State} (k : Nat) (h : step s = .next t) : run (k + 1) s = run k t := by
  simp [run, h]

/-- A run in two parts. -/
theorem run_add {s t : State} (j k : Nat) (h : run j s = .next t) : run (j + k) s = run k t := by
  induction j generalizing s with
  | zero =>
    simp only [run, Host.Outcome.next.injEq] at h
    rw [h, Nat.zero_add]
  | succ j ih =>
    simp only [run] at h
    cases hs : step s with
    | next u =>
      rw [hs] at h
      have hjk : j + 1 + k = (j + k) + 1 := by omega
      rw [hjk, run_succ _ hs]
      exact ih h
    | fault f => rw [hs] at h; cases h
    | refused r => rw [hs] at h; cases h

/-- `run` is the host's run of this machine. -/
theorem run_eq_core_run (k : Nat) (s : State) : run k s = Host.Core.run Sys2Proof.core k s := by
  induction k generalizing s with
  | zero => rfl
  | succ k ih =>
    cases h : step s with
    | next t =>
      have h' : Sys2Proof.core.step s = .next t := h
      simp only [Host.Core.run, run, h, h']
      exact ih t
    | fault f => cases f
    | refused r =>
      have h' : Sys2Proof.core.step s = .refused r := h
      simp only [Host.Core.run, run, h, h']
      rfl

theorem State.noReset_head {k : Nat} {s : State} (h : s.noReset (k + 1)) : s.pins.rst = false := by
  unfold State.noReset at h
  unfold State.pins
  cases hi : s.inputs with
  | nil => rfl
  | cons p r => exact h p (by simp [hi])

/-- The rest of the edges of a run without reset, for any state that has the same pins to come. -/
theorem State.noReset_tail {k : Nat} {s t : State} (h : s.noReset (k + 1)) (ht : t.inputs = s.inputs.tail) :
    t.noReset k := by
  intro p hp
  rw [ht] at hp
  apply h p
  cases hi : s.inputs with
  | nil => simp [hi] at hp
  | cons q r => simp [hi] at hp ⊢; exact .inr hp

end Sys2Proof.Machine
end

