-- ==== Sys2Proof/Tests/Slice0.lean ====
section
/-! SUPPORT. Tests of one step or one function each, with values from spec/95_test_vectors.md (V1 to V17) and the worked
examples of the rules; and for every obligation with hypotheses a witness that meets them. -/

namespace Sys2Proof.Tests

open Sys2Proof Sys2Proof.Machine

/-- The step answered a next state with this property. -/
def holds (o : Host.Outcome State Fault Refusal) (p : State → Bool) : Bool :=
  match o with
  | .next t => p t
  | .fault _ => false
  | .refused _ => false

theorem exists_of_holds {o : Host.Outcome State Fault Refusal} {p : State → Bool} (h : holds o p = true) :
    ∃ t, o = .next t ∧ p t = true := by
  cases o with
  | next t => exact ⟨t, rfl, h⟩
  | fault f => cases f
  | refused r => cases h

/-- A core in the reset state at whose next edge the host drives `p`. -/
def ready (p : PinSample) : State := { State.reset with inputs := [p] }

/-- The host drives a reset. -/
def resetPins : PinSample := { PinSample.idle with rst := true, cmdValid := true, cmdOp := 0b11#2 }

/-- The block buffer that holds 61 62 63 and then zeros. -/
def abcBytes : Block := ((Vector.replicate 64 0).set 0 0x61#8).set 1 0x62#8 |>.set 2 0x63#8

/-- The padded block of "abc" (V2). -/
def abcBlock : Block := (abcBytes.set 3 0x80#8).set 63 0x18#8

/-- A core that holds the digest of "abc" (V2). -/
def held : State :=
  { State.reset with
    DG := #v[0xba7816bf#32, 0x8f01cfea#32, 0x414140de#32, 0x5dae2223#32,
      0xb00361a3#32, 0x96177a9c#32, 0xb410ff61#32, 0xf20015ad#32]
    digestValid := true }

/-! ### Well-formedness: which operation may be performed in which phase (R74, R75) -/

theorem test_wellformed :
    (Instr.byte 0x61#8).wellFormedIn Phase.absorb = true ∧ Instr.pad.wellFormedIn Phase.pad = true ∧
    Instr.finish.wellFormedIn Phase.finish = true := by decide

theorem test_illformed_commands :
    Instr.nop.wellFormedIn Phase.pad = false ∧ Instr.init.wellFormedIn Phase.load = false ∧
    (Instr.byte 0x61#8).wellFormedIn Phase.round = false ∧ Instr.final.wellFormedIn Phase.finish = false := by decide

theorem test_illformed_operations :
    Instr.pad.wellFormedIn Phase.load = false ∧ Instr.load.wellFormedIn Phase.absorb = false ∧
    Instr.round.wellFormedIn Phase.update = false ∧ Instr.update.wellFormedIn Phase.round = false ∧
    Instr.finish.wellFormedIn 6#3 = false ∧ Instr.round.wellFormedIn 7#3 = false := by decide

/-! ### Decoding: words written out bit by bit from R70, R72, R75 and V12 -/

theorem test_decode_nop :
    decode (.cmd10 0b0000000000#10) = .ok .nop ∧ decode (.cmd10 0b0011111111#10) = .ok .nop := by decide

theorem test_decode_init :
    decode (.cmd10 0b0100000000#10) = .ok .init ∧ decode (.cmd10 0b0110100101#10) = .ok .init := by decide

theorem test_decode_byte :
    decode (.cmd10 0b1001100001#10) = .ok (.byte 0x61#8) ∧ decode (.cmd10 0b1010000000#10) = .ok (.byte 0x80#8) := by
  decide

theorem test_decode_final :
    decode (.cmd10 0b1100000000#10) = .ok .final ∧ decode (.cmd10 0b1111111111#10) = .ok .final := by decide

theorem test_decode_pad : decode (.phase3 0b001#3) = .ok .pad := by decide
theorem test_decode_load : decode (.phase3 0b010#3) = .ok .load := by decide
theorem test_decode_round : decode (.phase3 0b011#3) = .ok .round := by decide
theorem test_decode_update : decode (.phase3 0b100#3) = .ok .update := by decide
theorem test_decode_finish : decode (.phase3 0b101#3) = .ok .finish := by decide

theorem test_decode_refuses :
    decode (.phase3 0b000#3) = .error .absorb ∧ decode (.phase3 0b110#3) = .error (.reservedPhase 6#3) ∧
    decode (.phase3 0b111#3) = .error (.reservedPhase 7#3) ∧ decodeNat 16 1024 = .error (.notACommandWord 1024) ∧
    decodeNat 8 8 = .error (.notAPhaseCode 8) ∧ decodeNat 24 0 = .error (.noSuchFormat 24) := by decide

theorem test_table_words :
    decodeTableWord 16 0x000 = some .nop ∧ decodeTableWord 16 0x100 = some .init ∧
    decodeTableWord 16 0x2ff = some (.byte 0xff#8) ∧ decodeTableWord 16 0x300 = some .final ∧
    decodeTableWord 8 1 = some .pad ∧ decodeTableWord 8 5 = some .finish ∧ decodeTableWord 8 0 = none := by decide

/-! ### Functions of the datapath -/

/-- V7. -/
theorem test_rotate_and_shift :
    rotr32 0x12345678#32 7 = 0xf02468ac#32 ∧ shr32 0xdeadbeef#32 3 = 0x1bd5b7dd#32 ∧
    add32 0xffffffff#32 1#32 = 0#32 ∧ be32 0x61#8 0x62#8 0x63#8 0x80#8 = 0x61626380#32 := by decide

/-- V7. -/
theorem test_small_sigma :
    smallSigma0 0xdeadbeef#32 = 0xabd31b0b#32 ∧ smallSigma1 0x00000018#32 = 0x000f0000#32 ∧
    smallSigma0 0xffffffff#32 = 0x1fffffff#32 := by decide

/-- V7. -/
theorem test_big_sigma :
    bigSigma0 0x6a09e667#32 = 0xce20b47e#32 ∧ bigSigma1 0x510e527f#32 = 0x3587272b#32 ∧
    bigSigma1 0x00000001#32 = 0x04200080#32 := by decide

/-- V8. -/
theorem test_choose_majority :
    choose 0xffffffff#32 0x12345678#32 0x9abcdef0#32 = 0x12345678#32 ∧
    majority 0xffffffff#32 0x12345678#32 0x9abcdef0#32 = 0x9abcdef8#32 ∧
    choose 0xf0f0f0f0#32 0xaaaaaaaa#32 0x55555555#32 = 0xa5a5a5a5#32 := by decide

/-- V17, general case and the wrap. -/
theorem test_expand_word :
    expandWord 0x12345678#32 0xdeadbeef#32 0x9abcdef0#32 0x0000ffff#32 = 0xb8c4b0b2#32 ∧
    expandWord 0xffffffff#32 0#32 0xffffffff#32 0#32 = 0xfffffffe#32 := by decide

/-- V10, both values of the parameter. -/
theorem test_length_field :
    lengthField (lenMod .bits64 (BitVec.ofNat 61 536870913)) = #v[0, 0, 0, 1, 0, 0, 0, 8] ∧
    lengthField (lenMod .bits32 (BitVec.ofNat 61 536870913)) = #v[0, 0, 0, 0, 0, 0, 0, 8] ∧
    lengthField (lenMod .bits32 (BitVec.ofNat 61 100000000)) = #v[0, 0, 0, 0, 0x2f, 0xaf, 0x08, 0] := by decide

/-- V11. -/
theorem test_hex_characters :
    (hexEncode 0x0123456789abcdef00000000ffffffffa0b1c2d30000000ff000000009af09af#256).extractLsb' 384 128
      = 0x30313233343536373839616263646566#128 ∧
    hexEncode 0#256 = BitVec.ofNat 512 (0x30 * ((256 ^ 64 - 1) / 255)) := by decide +kernel

/-- V4 and V13. -/
theorem test_counts :
    padZeros 56 = 63 ∧ padZeros 1000 = 15 ∧ blockCount 119 = 2 ∧ blockCount 120 = 3 ∧ callEdges 0 = 69 ∧
    callEdges 64 = 199 ∧ callEdges 1000 = 2059 := by decide

/-! ### Operations -/

/-- V15: with a digest on the port. -/
theorem test_nop_keeps_digest : holds (exec .nop held) (fun t => t == held) = true := by decide

/-- V15: `fill = 5`, `len = 5`; the block buffer is kept. -/
theorem test_init_drops_message :
    holds (exec .init { State.reset with fill := 5, len := 5, H := Vector.replicate 8 7, blk := abcBytes })
      (fun t => t.fill == 0 && t.len == 0 && t.H == IV && t.blk == abcBytes && t.phase == 0#3) = true := by decide

/-- V15: with a digest on the port. -/
theorem test_init_clears_digest :
    holds (exec .init held) (fun t => !t.digestValid && t.DG == Vector.replicate 8 0) = true := by decide

/-- V15: `BYTE 0x00` with a digest on the port. -/
theorem test_byte_clears_digest :
    holds (exec (.byte 0x00#8) { held with blk := abcBytes })
      (fun t => !t.digestValid && t.DG == Vector.replicate 8 0 && t.blk[0] == 0 && t.fill == 1 && t.len == 1) = true := by
  decide

/-- V15: the 64th byte, and the wrap of `len` at `2^(LEN_FIELD_BITS-3) - 1`. -/
theorem test_byte_fills_block :
    holds (exec (.byte 0x7a#8) { State.reset with fill := 63, len := 63 })
      (fun t => t.blk[63] == 0x7a#8 && t.blk[62] == 0 && t.fill == 0 && t.len == 64 && t.phase == 2#3) = true := by decide

theorem test_len_wraps :
    lenMod .bits32 (0x1fffffff#61 + 1) = 0 ∧ lenMod .bits64 (0x1fffffffffffffff#61 + 1) = 0 := by decide

/-- V15. -/
theorem test_final_closes :
    holds (exec .final held) (fun t => t.fin && !t.digestValid && t.DG == Vector.replicate 8 0 && t.phase == 1#3) = true := by
  decide

/-- V2: the padding of "abc". -/
theorem test_pad_abc :
    holds (exec .pad { State.reset with blk := abcBytes, fill := 3, len := 3, fin := true, phase := 1#3 })
      (fun t => t.blk == abcBlock && t.mark && t.last && t.phase == 2#3 && t.fill == 3) = true := by decide

/-- V6: 56 bytes; the marker fits and the length field does not, and the second block (V4: `00^62 01 c0`). -/
theorem test_pad_two_blocks :
    holds (exec .pad { State.reset with blk := Vector.replicate 64 0x61#8, fill := 56, len := 56, phase := 1#3 })
      (fun t => t.blk[55] == 0x61#8 && t.blk[56] == 0x80#8 && t.blk[57] == 0 && t.blk[63] == 0 && t.mark && !t.last &&
        holds (exec .pad { t with phase := 1#3 })
          (fun u => u.blk == ((Vector.replicate 64 0).set 62 1#8).set 63 0xc0#8 && u.last)) = true := by decide

/-- R176. -/
theorem test_load_copies :
    holds (exec .load { held with H := held.DG, rnd := 9, phase := 2#3 })
      (fun t => t.V == held.DG && t.rnd == 0 && t.phase == 3#3) = true := by decide

/-- R161: round 0 of "abc". -/
theorem test_round_first :
    holds (exec .round { State.reset with blk := abcBlock, V := IV, phase := 3#3 })
      (fun t => t.W[0] == 0x61626380#32 && t.rnd == 1 && t.phase == 3#3 &&
        t.V == #v[0x5d6aebcd#32, 0x6a09e667#32, 0xbb67ae85#32, 0x3c6ef372#32,
          0xfa2a4622#32, 0x510e527f#32, 0x9b05688c#32, 0x1f83d9ab#32]) = true := by decide

/-- V2: round 63 of "abc", from the values after round 62. -/
theorem test_round_last :
    holds (exec .round { State.reset with
        rnd := 63
        phase := 3#3
        V := #v[0xd39a2165#32, 0x04d24d6c#32, 0xb85e2ce9#32, 0xb6ae8fff#32,
          0xfb121210#32, 0x948d25b6#32, 0x961f4894#32, 0xb21bad3d#32]
        W := (((Vector.replicate 64 0).set 47 0x065c43da#32).set 48 0xfb3e89cb#32).set 56 0xef57b9cd#32
          |>.set 61 0x668b2ff8#32 })
      (fun t => t.W[63] == 0x12b1edeb#32 && t.rnd == 0 && t.phase == 4#3 && t.V[0] == 0x506e3058#32 &&
        t.V[4] == 0x5ef50f24#32 && t.V[7] == 0x961f4894#32) = true := by decide

/-- V2: `UPDATE` after round 63 of "abc", the last block of its call. -/
theorem test_update_folds :
    holds (exec .update { State.reset with
        phase := 4#3
        fin := true
        last := true
        V := #v[0x506e3058#32, 0xd39a2165#32, 0x04d24d6c#32, 0xb85e2ce9#32,
          0x5ef50f24#32, 0xfb121210#32, 0x948d25b6#32, 0x961f4894#32] })
      (fun t => t.H == held.DG && t.phase == 5#3) = true := by decide

/-- R175: the other two ways out of `P_UPDATE`. -/
theorem test_update_phases :
    holds (exec .update { State.reset with phase := 4#3 }) (fun t => t.phase == 0#3) = true ∧
    holds (exec .update { State.reset with phase := 4#3, fin := true }) (fun t => t.phase == 1#3) = true := by decide

/-- R180: `DG` takes the hash from before the edge. -/
theorem test_finish_publishes :
    holds (exec .finish { State.reset with
        H := held.DG, fill := 3, len := 3, fin := true, mark := true, last := true, phase := 5#3, blk := abcBlock })
      (fun t => t == { held with blk := abcBlock }) = true := by decide

/-! ### The edge -/

/-- V14: `rst = 1` together with `FINAL`. -/
theorem test_reset_edge :
    holds (step { held with blk := abcBlock, phase := 3#3, inputs := [resetPins] }) (fun t => t == State.reset) = true := by
  decide

/-- V15: a byte presented in `P_ROUND` is not stored; the round happens. -/
theorem test_busy_ignores_byte :
    holds (step { State.reset with phase := 3#3, inputs := [PinSample.present 0x261#10] })
      (fun t => t.blk == Vector.replicate 64 0 && t.rnd == 1 && t.fill == 0) = true := by decide

theorem test_reserved_phase :
    step { State.reset with phase := 6#3 } = .refused (.reservedPhase 6#3) ∧
    holds (step { State.reset with phase := 7#3, inputs := [resetPins] }) (fun t => t == State.reset) = true :=
  ⟨rfl, by decide⟩

/-- A table word placed for the next step is performed by it. -/
theorem test_fetch_word :
    holds (step (State.reset.withFetchWord 16 0x261)) (fun t => t.blk[0] == 0x61#8 && t.fill == 1) = true ∧
    holds (step (State.reset.withFetchWord 8 5)) (fun t => t.digestValid) = true := by decide

/-- R87, R88: text of a command stream. -/
theorem test_program_text :
    parseText "BYTE 0x61  -- a\n@1 FINAL\nHASH \"abc\"\n".toList
      = some [.byte 0x61#8, .final, .hash [0x61#8, 0x62#8, 0x63#8]] ∧
    parseText "BYTE 0x6".toList = none := by decide

/-! ### Witnesses: a state and operands that meet the hypotheses of each obligation -/

theorem len_witness (n : Nat) (h : n < 2 ^ 29) :
    (BitVec.ofNat 61 n).toNat = n % 2 ^ (Config.lenFieldBits.width - 3) := by
  generalize Config.lenFieldBits = b
  cases b <;> simp [LenFieldBits.width]
  omega

theorem held_inv : held.Inv := by
  have h : held.len.toNat < 2 ^ Config.lenFieldBits.counterBits := by
    generalize Config.lenFieldBits = b
    cases b <;> decide
  constructor <;> first | exact h | decide

/-- A core that has just stored the 64th byte of a block. -/
def loading : State := { State.reset with phase := 2#3, len := 64 }

theorem loading_inv : loading.Inv := by
  have h : loading.len.toNat < 2 ^ Config.lenFieldBits.counterBits := by
    generalize Config.lenFieldBits = b
    cases b <;> decide
  constructor <;> first | exact h | decide

theorem ready_fresh (p : PinSample) : (ready p).Fresh := ⟨rfl, rfl, rfl, rfl, rfl, rfl, rfl⟩

theorem witness_StepFollowsTheOrderOfDecoding :
    (ready resetPins).pins.rst = true ∧
    (State.reset.pins.rst = false ∧ State.reset.phase = Phase.absorb ∧ State.reset.pins.cmdValid = false) ∧
    ((ready (PinSample.present 0x2ff#10)).pins.rst = false ∧ (ready (PinSample.present 0x2ff#10)).pins.cmdValid = true ∧
      decode (.cmd10 ((ready (PinSample.present 0x2ff#10)).pins.cmdOp ++ (ready (PinSample.present 0x2ff#10)).pins.cmdData))
        = .ok (.byte 0xff#8)) ∧
    (loading.pins.rst = false ∧ loading.phase ≠ Phase.absorb ∧ decode (.phase3 loading.phase) = .ok .load) := by decide

theorem witness_StepRunsOnlyOperationsOfThePhase :
    select (PinSample.present 0x300#10) 0#3 = .run .final ∧ select PinSample.idle 5#3 = .run .finish := by decide

theorem witness_ResetEdgeRestoresEveryRegister : (ready resetPins).pins.rst = true := by decide

theorem witness_NopAndIdleChangeNothing :
    held.phase = Phase.absorb ∧ PinSample.idle.rst = false ∧ PinSample.idle.cmdValid = false ∧
    (PinSample.present 0x0ff#10).rst = false ∧ (PinSample.present 0x0ff#10).cmdOp = 0b00#2 := by decide

theorem witness_WordsNotPresentedToAReadyCoreAreIgnored :
    (PinSample.present 0x261#10).rst = false ∧ (PinSample.present 0x300#10).rst = false ∧
    loading.phase ≠ Phase.absorb ∧ PinSample.idle.cmdValid = false ∧ State.reset.phase = Phase.absorb ∧
    (PinSample.present 0x261#10).cmdValid = true := by decide

/-- Both codes, with and without reset. -/
theorem witness_ReservedPhaseRefusedUntilReset :
    ({ State.reset with phase := 6#3 } : State).pins.rst = false ∧
    ({ State.reset with phase := 7#3, inputs := [resetPins] } : State).pins.rst = true := by decide

theorem witness_InitStartsACall : held.phase = Phase.absorb := by decide

/-- Room, and the 64th byte. -/
theorem witness_ByteIsAppended :
    ({ State.reset with fill := 62 } : State).fill.toNat ≠ 63 ∧ ({ State.reset with fill := 63 } : State).fill.toNat = 63 := by
  decide

theorem witness_FinalClosesTheMessage : State.reset.phase = Phase.absorb := by decide

/-- Both visits, the first with `fill` at 55 and at 56. -/
theorem witness_PadWritesThePadding :
    ({ State.reset with phase := 1#3, fill := 55 } : State).mark = false ∧
    ({ State.reset with phase := 1#3, fill := 56 } : State).fill.toNat = 56 ∧
    ({ State.reset with phase := 1#3, mark := true } : State).phase = Phase.pad := by decide

theorem witness_LoadCopiesTheHash : loading.phase = Phase.load := by decide

/-- The first round, the last with a block word, the first with an expanded word, the last. -/
theorem witness_RoundPerformsOneRound :
    ∀ j ∈ [0, 15, 16, 63], ∃ s : State, s.phase = Phase.round ∧ s.rnd.toNat = j := by
  intro j hj
  exact ⟨{ State.reset with phase := 3#3, rnd := BitVec.ofNat 6 j }, rfl, by revert j; decide⟩

/-- The three ways out of `P_UPDATE`. -/
theorem witness_UpdateFoldsTheWorkingVariables :
    ({ State.reset with phase := 4#3 } : State).fin = false ∧
    (({ State.reset with phase := 4#3, fin := true } : State).last = false) ∧
    (({ State.reset with phase := 4#3, fin := true, last := true } : State).phase = Phase.update) := by decide

theorem witness_FinishPublishesTheDigest : ({ State.reset with phase := 5#3 } : State).phase = Phase.finish := by decide

theorem witness_LengthFieldIsBigEndian :
    ({ State.reset with len := BitVec.ofNat 61 8191 } : State).len.toNat
      = 8191 % 2 ^ (Config.lenFieldBits.width - 3) := len_witness 8191 (by decide)

theorem witness_ScheduleWordOfRound : ∃ t, exec .round State.reset = .next t := ⟨_, rfl⟩

theorem witness_WordOperations : (1 ≤ 31 ∧ 31 ≤ 31 ∧ 31 < 32) ∧ (1 ≤ 1 ∧ 1 ≤ 31 ∧ 0 < 32) := by decide

theorem witness_EachRegisterHasItsWriters :
    (∃ t, exec .nop State.reset = .next t) ∧ (∃ t, exec (.byte 1) State.reset = .next t) ∧
    ∃ t, exec .round State.reset = .next t := ⟨⟨_, rfl⟩, ⟨_, rfl⟩, ⟨_, rfl⟩⟩

/-- One state for each clause about the commands. -/
theorem witness_PhaseTransitions_commands :
    State.reset.accepts = none ∧ (ready (PinSample.present 0x000#10)).accepts = some .nop ∧
    (ready (PinSample.present 0x100#10)).accepts = some .init ∧
    (ready (PinSample.present 0x261#10)).accepts = some (.byte 0x61#8) ∧
    (ready (PinSample.present 0x300#10)).accepts = some .final := by decide

/-- A step from each phase answers, and a reset step. -/
theorem witness_PhaseTransitions_steps :
    (∀ p ∈ [0#3, 1#3, 2#3, 3#3, 4#3, 5#3], ∃ t, step { State.reset with phase := p } = .next t) ∧
    ∃ t, step (ready resetPins) = .next t := by
  refine ⟨?_, _, rfl⟩
  intro p hp
  fin_cases hp <;> exact ⟨_, rfl⟩

theorem witness_StepKeepsTheInvariant : loading.Inv ∧ ∃ t, step loading = .next t := ⟨loading_inv, _, rfl⟩

/-- With nothing presented, with `INIT` and with reset. -/
theorem witness_DigestHeldUntilTheNextCommand :
    held.Inv ∧ held.digestValid = true ∧ held.accepts = none ∧
    ({ held with inputs := [PinSample.present 0x100#10] } : State).accepts = some .init ∧
    ({ held with inputs := [resetPins] } : State).pins.rst = true := ⟨held_inv, rfl, rfl, rfl, rfl⟩

theorem witness_HashHiddenUntilFinish :
    loading.phase = ({ loading with blk := abcBlock } : State).phase ∧ loading.phase ≠ Phase.finish ∧
    (∃ t, step loading = .next t) ∧ ∃ t, step { loading with blk := abcBlock } = .next t :=
  ⟨rfl, by decide, ⟨_, rfl⟩, ⟨_, rfl⟩⟩

theorem witness_ResidueNeverReachesAPort :
    State.reset.Fresh ∧ State.reset.sameButResidue { State.reset with blk := abcBlock } ∧
    (∃ t, run 1 State.reset = .next t) ∧ ∃ t, run 1 { State.reset with blk := abcBlock } = .next t :=
  ⟨⟨rfl, rfl, rfl, rfl, rfl, rfl, rfl⟩, rfl, ⟨_, rfl⟩, ⟨_, rfl⟩⟩

theorem witness_BusyCoreReturnsToReady :
    loading.Inv ∧ loading.phase ≠ Phase.absorb ∧ loading.noReset 135 :=
  ⟨loading_inv, by decide, by intro p hp; cases hp⟩

/-- Round 0 and round 63. -/
theorem witness_RoundFollowsTheReference (j : BitVec 6) :
    ∃ s : State, s.phase = Phase.round ∧ s.rnd = j ∧ s.V = roundsUpTo IV (sched s.blk) s.rnd.toNat ∧
      ∀ i : Fin 64, i.val < s.rnd.toNat → s.W[i] = (sched s.blk)[i] :=
  ⟨{ State.reset with
      phase := 3#3, blk := abcBlock, rnd := j, V := roundsUpTo IV (sched abcBlock) j.toNat, W := sched abcBlock },
    rfl, rfl, rfl, fun _ _ => rfl⟩

theorem witness_BlockIsCompressed : loading.phase = Phase.load ∧ loading.noReset 66 :=
  ⟨rfl, by intro p hp; cases hp⟩

/-- One block after `FINAL`, and two. -/
theorem witness_FinalRunsToAFreshCall :
    ∀ f ∈ [55#6, 56#6], ∃ s : State, s.fill = f ∧ s.accepts = some .final ∧ s.mark = false ∧ s.last = false ∧
      s.noReset (1 + finalEdges s.fill.toNat) := by
  intro f hf
  refine ⟨{ ready (PinSample.present 0x300#10) with fill := f }, rfl, ?_, rfl, rfl, ?_⟩
  · simp [State.accepts, State.pins, ready, PinSample.present, PinSample.word, cmdWord, cmdOpOf, cmdDataOf,
      decodeCommand, State.reset]
  · intro p hp
    have h : p ∈ [PinSample.present 0x300#10] := List.mem_of_mem_take hp
    rw [List.mem_singleton.mp h]
    rfl

theorem witness_BytesOfACallAreAbsorbed :
    (ready (PinSample.present 0x261#10)).Fresh ∧ (ready (PinSample.present 0x261#10)).noReset 1 ∧
    acceptedIn 1 (ready (PinSample.present 0x261#10)) = [0x61#8].map Instr.byte ∧
    ∃ t, run 1 (ready (PinSample.present 0x261#10)) = .next t ∧ t.phase = Phase.absorb := by
  refine ⟨ready_fresh _, ?_, by decide, _, rfl, rfl⟩
  intro p hp
  rw [List.mem_singleton.mp hp]
  rfl

/-- The empty message: `FINAL` alone, 69 edges (V1, P1). -/
theorem witness_CallDeliversItsDigest :
    (ready (PinSample.present 0x300#10)).Fresh ∧ (ready (PinSample.present 0x300#10)).noReset 69 ∧
    acceptedIn 69 (ready (PinSample.present 0x300#10)) = callOf [] ∧
    ∃ t, run 69 (ready (PinSample.present 0x300#10)) = .next t ∧ t.phase = Phase.absorb := by
  refine ⟨ready_fresh _, ?_, by decide +kernel, ?_⟩
  · intro p hp
    rw [List.mem_singleton.mp hp]
    rfl
  · have h : holds (run 69 (ready (PinSample.present 0x300#10))) (fun t => t.phase == 0#3) = true := by decide +kernel
    obtain ⟨t, ht, hp⟩ := exists_of_holds h
    exact ⟨t, ht, by simpa using hp⟩

theorem witness_PromptCallTakesItsEdges : held.Fresh := ⟨rfl, rfl, rfl, rfl, rfl, rfl, rfl⟩

theorem witness_HashLineComputesTheDigest : held.Inv ∧ held.phase = Phase.absorb := ⟨held_inv, rfl⟩

/-- A call of `n` bytes 61 that has been closed. -/
def padding (n : Nat) : State :=
  { State.reset with
    phase := 1#3, fill := BitVec.ofNat 6 n, len := BitVec.ofNat 61 n, blk := Vector.replicate 64 0x61#8, fin := true }

/-- No byte in the buffer, and 56, for which a second visit follows. -/
theorem witness_PadderWritesThePaddedMessage :
    ∀ n ∈ [0, 56], ∃ (s u : State) (m : Message), m.length = n ∧ s.phase = Phase.pad ∧ s.mark = false ∧
      s.fill.toNat = m.length % 64 ∧ s.len.toNat = m.length % 2 ^ (Config.lenFieldBits.width - 3) ∧
      (∀ i : Fin 64, i.val < s.fill.toNat → s.blk[i] = m.getD (64 * (m.length / 64) + i.val) 0) ∧
      ∃ t, exec .pad s = .next t ∧ (n = 56 → t.last = false) ∧ u.mark = true ∧ u.len = t.len := by
  intro n hn
  have hlt : n < 2 ^ 29 := by revert n; decide
  refine ⟨padding n, { padding n with mark := true }, List.replicate n 0x61#8, by simp, rfl, rfl, ?_, ?_, ?_, _, rfl, ?_, rfl, rfl⟩
  · revert n; decide
  · rw [List.length_replicate]; exact len_witness n hlt
  · revert n; decide
  · intro h; subst h; decide

theorem witness_ShortMessagesIgnoreLenFieldBits : ([0x61#8] : Message).length < 2 ^ 29 := by decide

theorem witness_DigestPortsZeroWhileInvalid : loading.Inv ∧ loading.digestValid = false := ⟨loading_inv, rfl⟩

theorem witness_HexTextDeterminesTheDigest : hexEncode 0 = hexEncode 0 := rfl

theorem witness_RoundModuleWires : ∃ t, exec .round { loading with phase := 3#3 } = .next t := ⟨_, rfl⟩

end Sys2Proof.Tests
end

/-! ## 00_scope: the word operations, and the parameter `LEN_FIELD_BITS` -/

namespace Sys2Proof.Machine

/-! ### One lemma per word operation (00_scope R12) -/

theorem add32_toNat (x y : Word) : (add32 x y).toNat = (x.toNat + y.toNat) % 2 ^ 32 :=
  BitVec.toNat_add x y

theorem add32_comm (x y : Word) : add32 x y = add32 y x := BitVec.add_comm x y

theorem add32_assoc (x y z : Word) : add32 (add32 x y) z = add32 x (add32 y z) := BitVec.add_assoc x y z

theorem shr32_toNat (x : Word) (n : Nat) : (shr32 x n).toNat = x.toNat / 2 ^ n := by
  rw [shr32, BitVec.toNat_ushiftRight, Nat.shiftRight_eq_div_pow]

theorem xor3_getLsbD (x y z : Word) (i : Nat) :
    (xor3 x y z).getLsbD i = (x.getLsbD i ^^ y.getLsbD i ^^ z.getLsbD i) := by
  rw [xor3, BitVec.getLsbD_xor, BitVec.getLsbD_xor]

theorem rotr32_toNat (x : Word) (n : Nat) :
    (rotr32 x n).toNat = x.toNat / 2 ^ n ||| x.toNat * 2 ^ (32 - n) % 2 ^ 32 := by
  rw [rotr32, BitVec.toNat_or, BitVec.toNat_ushiftRight, BitVec.toNat_shiftLeft, Nat.shiftRight_eq_div_pow,
    Nat.shiftLeft_eq]

/-- Below 32 places the rotation is the library's. -/
theorem rotr32_eq_rotateRight (x : Word) {n : Nat} (hn : n < 32) : rotr32 x n = x.rotateRight n := by
  rw [BitVec.rotateRight_def, Nat.mod_eq_of_lt hn, rotr32]

/-- A rotation is circular: the bits that leave at the bottom come back at the top. -/
theorem rotr32_getLsbD (x : Word) {n i : Nat} (hn : n < 32) (hi : i < 32) :
    (rotr32 x n).getLsbD i = x.getLsbD ((i + n) % 32) := by
  rw [rotr32_eq_rotateRight x hn, BitVec.getLsbD_rotateRight_of_lt hn]
  by_cases h : i < 32 - n
  · have hin : (i + n) % 32 = n + i := by omega
    simp [h, hin]
  · have hin : (i + n) % 32 = i - (32 - n) := by omega
    simp [h, hi, hin]

/-- Settles O27: each clause is the lemma of its operation. -/
theorem wordOperations : Obligations.WordOperations := by
  intro x y z n i _ hn hi
  have hn' : n < 32 := by omega
  exact ⟨add32_toNat x y, rotr32_toNat x n, rotr32_getLsbD x hn' hi, shr32_toNat x n, BitVec.getLsbD_and,
    xor3_getLsbD x y z i, BitVec.toNat_not, add32_assoc x y z, add32_comm x y⟩

/-! ### Messages whose bit length fits in 32 bits (41_padder R127) -/

/-- Below 2^29 bytes the bit length is below 2^32, so neither width of the length field reduces it. -/
theorem bitLength_mod_width {n : Nat} (hn : n < 2 ^ 29) (b : LenFieldBits) : 8 * n % 2 ^ b.width = 8 * n := by
  apply Nat.mod_eq_of_lt
  cases b <;> simp only [LenFieldBits.width] <;> omega

theorem lengthBytes_eq_of_lt {n : Nat} (hn : n < 2 ^ 29) (b c : LenFieldBits) :
    lengthBytes b n = lengthBytes c n := by
  simp only [lengthBytes, bitLength_mod_width hn]

/-- The length field is all of `Pad(M)` that depends on the parameter (41_padder R121). -/
theorem pad_eq_of_lt {m : Message} (hm : m.length < 2 ^ 29) (b c : LenFieldBits) : pad b m = pad c m := by
  simp only [pad, lengthBytes_eq_of_lt hm b c]

/-- Settles O47: the padded messages are equal, and a digest is a function of the padded message. -/
theorem shortMessagesIgnoreLenFieldBits : Obligations.ShortMessagesIgnoreLenFieldBits := by
  intro m hm
  rw [digestOf, digestOf, pad_eq_of_lt hm .bits32 .bits64]

end Sys2Proof.Machine

/-! ## 10_state: the registers, their invariant, and what of them reaches a port -/

namespace Sys2Proof.Machine

/-! ### The invariant at the start of a call and at reset (10_state R39, R40) -/

/-- A fresh call meets the invariant, with or without a digest: reset, `INIT` and `FINISH` all leave one. -/
theorem State.Fresh.inv {s : State} (hs : s.Fresh) (hr : s.rnd = 0) (hd : s.digestValid = false → s.DG = zeroWords) :
    s.Inv := by
  obtain ⟨hp, hH, hf, hl, hfin, hm, hla⟩ := hs
  exact {
    digest_clear := hd
    digest_held := fun _ => ⟨hp, hf, hl, hH⟩
    ready := fun _ => ⟨hfin, hm, hla, hr⟩
    phase_legal := by simp [hp]
    len_fits := by simp [hl]
    rnd_zero := fun _ => hr
    message_open := fun _ => ⟨hm, hla, by simp [hp], by simp [hp]⟩
    block_full := fun _ _ => hf
    marker_written := by simp [hfin]
    pad_not_last := fun _ => hla
    second_pad := by simp [hm]
    finish_last := by simp [hp] }

theorem State.resetRegisters_fresh (s : State) : s.resetRegisters.Fresh := ⟨rfl, rfl, rfl, rfl, rfl, rfl, rfl⟩

/-- `INIT` ends in a fresh call (40_commands R102). -/
theorem exec_init_fresh {s t : State} (ht : exec .init s = .next t) : t.Fresh := by
  cases ht
  exact ⟨rfl, rfl, rfl, rfl, rfl, rfl, rfl⟩

/-- `FINISH` ends in a fresh call (44_core_sequencer R180). -/
theorem exec_finish_fresh {s t : State} (ht : exec .finish s = .next t) : t.Fresh := by
  cases ht
  exact ⟨rfl, rfl, rfl, rfl, rfl, rfl, rfl⟩

/-- Settles O32: the reset state is a fresh call without a digest. -/
theorem resetMeetsTheInvariant : Obligations.ResetMeetsTheInvariant :=
  (State.resetRegisters_fresh State.reset).inv rfl fun _ => rfl

/-! ### The next phase at `UPDATE` and at `ROUND` (44_core_sequencer R177, R178) -/

theorem State.phaseAfterUpdate_eq_absorb (s : State) : s.phaseAfterUpdate = Phase.absorb ↔ s.fin = false := by
  cases hf : s.fin <;> cases hl : s.last <;> simp [phaseAfterUpdate, hf, hl]

theorem State.phaseAfterUpdate_eq_pad (s : State) :
    s.phaseAfterUpdate = Phase.pad ↔ s.fin = true ∧ s.last = false := by
  cases hf : s.fin <;> cases hl : s.last <;> simp [phaseAfterUpdate, hf, hl]

theorem State.phaseAfterUpdate_eq_finish (s : State) :
    s.phaseAfterUpdate = Phase.finish ↔ s.fin = true ∧ s.last = true := by
  cases hf : s.fin <;> cases hl : s.last <;> simp [phaseAfterUpdate, hf, hl]

theorem State.phaseAfterUpdate_cases (s : State) :
    s.phaseAfterUpdate = Phase.absorb ∨ s.phaseAfterUpdate = Phase.pad ∨ s.phaseAfterUpdate = Phase.finish := by
  cases hf : s.fin <;> cases hl : s.last <;> simp [phaseAfterUpdate, hf, hl]

theorem State.phaseAfterRound_cases (s : State) :
    (s.phaseAfterRound = Phase.round ∧ s.rnd ≠ 63#6) ∨ (s.phaseAfterRound = Phase.update ∧ s.rnd = 63#6) := by
  by_cases hr : s.rnd = 63#6 <;> simp [phaseAfterRound, hr]

/-! ### Every operation keeps the invariant in its own phase (10_state R39) -/

namespace State.Inv

variable {s t : State}

/-- A busy core holds no digest (10_state R39 (ii)). -/
theorem no_digest (h : s.Inv) (hp : s.phase ≠ Phase.absorb) : s.digestValid = false := by
  cases hd : s.digestValid with
  | false => rfl
  | true =>
    obtain ⟨habsorb, -⟩ := h.digest_held hd
    exact absurd habsorb hp

/-- `PAD` is due only after `FINAL` (44_core_sequencer R175). -/
theorem fin_of_pad (h : s.Inv) (hp : s.phase = Phase.pad) : s.fin = true := by
  cases hf : s.fin with
  | true => rfl
  | false =>
    obtain ⟨-, -, hpad, -⟩ := h.message_open hf
    exact absurd hp hpad

/-- What the host will drive is no part of the invariant. -/
theorem takeEdge (h : s.Inv) : s.takeEdge.Inv := { h with }

theorem init (h : s.Inv) (hp : s.phase = Phase.absorb) (ht : exec .init s = .next t) : t.Inv := by
  have hfresh := exec_init_fresh ht
  cases ht
  exact hfresh.inv (h.rnd_zero (by simp [hp])) fun _ => rfl

theorem byte {d : Byte} (h : s.Inv) (hp : s.phase = Phase.absorb) (ht : exec (.byte d) s = .next t) : t.Inv := by
  obtain ⟨hfin, hm, hla, hr⟩ := h.ready hp
  have hlen : s.lenNext.toNat < 2 ^ Config.lenFieldBits.counterBits := by
    rw [lenNext_toNat]
    exact Nat.mod_lt _ (Nat.two_pow_pos _)
  by_cases hf : s.fill = 63#6
  · rw [exec_byte_full d hf] at ht
    cases ht
    exact {
      digest_clear := fun _ => rfl
      digest_held := by simp
      ready := by simp
      phase_legal := by simp
      len_fits := hlen
      rnd_zero := fun _ => hr
      message_open := by simp [hm, hla]
      block_full := by simp [hf]
      marker_written := by simp [hfin]
      pad_not_last := by simp
      second_pad := by simp [hm]
      finish_last := by simp }
  · rw [exec_byte_room d hf] at ht
    cases ht
    exact { h with
      digest_clear := fun _ => rfl
      digest_held := by simp
      len_fits := hlen
      block_full := by simp [hp]
      second_pad := by simp [hm] }

theorem final (h : s.Inv) (hp : s.phase = Phase.absorb) (ht : exec .final s = .next t) : t.Inv := by
  obtain ⟨-, hm, hla, hr⟩ := h.ready hp
  cases ht
  exact { h with
    digest_clear := fun _ => rfl
    digest_held := by simp
    ready := by simp
    phase_legal := by simp
    rnd_zero := fun _ => hr
    message_open := by simp
    block_full := by simp
    marker_written := by simp
    pad_not_last := fun _ => hla
    finish_last := by simp }

theorem pad (h : s.Inv) (hp : s.phase = Phase.pad) (ht : exec .pad s = .next t) : t.Inv := by
  have hfin := h.fin_of_pad hp
  have hdv := h.no_digest (by simp [hp])
  have hr := h.rnd_zero (by simp [hp])
  have key (b : Block) (l : Bool) (hl : l = true ∨ 56 ≤ s.fill.toNat) :
      ((s.writeBlock b true l).setPhase Phase.load).Inv := { h with
    digest_held := by simp [hdv]
    ready := by simp
    phase_legal := by simp
    rnd_zero := fun _ => hr
    message_open := by simp [hfin]
    block_full := by simp [hfin]
    marker_written := fun _ _ => rfl
    pad_not_last := by simp
    second_pad := fun _ => hl
    finish_last := by simp }
  cases hm : s.mark with
  | false =>
    rw [exec_pad_first hm] at ht
    cases ht
    apply key
    simp only [lengthFits, decide_eq_true_eq]
    omega
  | true =>
    rw [exec_pad_second hm] at ht
    cases ht
    exact key _ _ (.inl rfl)

/-- What `LOAD` and `ROUND` write: `V`, `W`, `rnd` and the next phase, with `rnd` back at 0 when the rounds are over. -/
theorem in_block (h : s.Inv) (hb : s.phase ≠ Phase.absorb) (hpad : s.phase ≠ Phase.pad) (v : Words8) (w : Words64)
    {j : BitVec 6} {p : Phase} (hp : p = Phase.round ∨ p = Phase.update ∧ j = 0) :
    { s with V := v, W := w, rnd := j, phase := p }.Inv := by
  have hdv := h.no_digest hb
  exact { h with
    digest_held := by simp [hdv]
    ready := by rcases hp with rfl | ⟨rfl, -⟩ <;> simp
    phase_legal := by rcases hp with rfl | ⟨rfl, -⟩ <;> simp
    rnd_zero := fun hne => (hp.resolve_left hne).2
    message_open := fun hf => by
      obtain ⟨hm, hla, -⟩ := h.message_open hf
      exact ⟨hm, hla, by rcases hp with rfl | ⟨rfl, -⟩ <;> simp⟩
    block_full := fun hf _ => h.block_full hf hb
    marker_written := fun hf _ => h.marker_written hf hpad
    pad_not_last := by rcases hp with rfl | ⟨rfl, -⟩ <;> simp
    finish_last := by rcases hp with rfl | ⟨rfl, -⟩ <;> simp }

theorem load (h : s.Inv) (hp : s.phase = Phase.load) (ht : exec .load s = .next t) : t.Inv := by
  cases ht
  exact h.in_block (by simp [hp]) (by simp [hp]) s.H s.W (.inl rfl)

theorem round (h : s.Inv) (hp : s.phase = Phase.round) (ht : exec .round s = .next t) : t.Inv := by
  have hnext : s.phaseAfterRound = Phase.round ∨ s.phaseAfterRound = Phase.update ∧ s.rnd + 1 = 0 := by
    obtain ⟨hround, -⟩ | ⟨hupdate, hr⟩ := s.phaseAfterRound_cases
    · exact .inl hround
    · exact .inr ⟨hupdate, by rw [hr]; rfl⟩
  cases ht
  exact h.in_block (by simp [hp]) (by simp [hp]) _ _ hnext

theorem update (h : s.Inv) (hp : s.phase = Phase.update) (ht : exec .update s = .next t) : t.Inv := by
  have hdv := h.no_digest (by simp [hp])
  have hr := h.rnd_zero (by simp [hp])
  cases ht
  exact { h with
    digest_held := by simp [hdv]
    ready := fun ha => by
      have hfin := s.phaseAfterUpdate_eq_absorb.mp ha
      obtain ⟨hm, hla, -⟩ := h.message_open hfin
      exact ⟨hfin, hm, hla, hr⟩
    phase_legal := by obtain e | e | e := s.phaseAfterUpdate_cases <;> simp [e]
    rnd_zero := fun _ => hr
    message_open := fun hf => by
      obtain ⟨hm, hla, -⟩ := h.message_open hf
      exact ⟨hm, hla, by simp [s.phaseAfterUpdate_eq_absorb.mpr hf]⟩
    block_full := fun hf _ => h.block_full hf (by simp [hp])
    marker_written := fun hf _ => h.marker_written hf (by simp [hp])
    pad_not_last := fun hpad => (s.phaseAfterUpdate_eq_pad.mp hpad).2
    finish_last := fun hfinish => (s.phaseAfterUpdate_eq_finish.mp hfinish).2 }

theorem finish (h : s.Inv) (hp : s.phase = Phase.finish) (ht : exec .finish s = .next t) : t.Inv := by
  have hfresh := exec_finish_fresh ht
  cases ht
  exact hfresh.inv (h.rnd_zero (by simp [hp])) (by simp)

/-- An operation performed in its own phase keeps the invariant. -/
theorem of_exec {i : Instr} (h : s.Inv) (hp : s.phase = i.phaseOf) (ht : exec i s = .next t) : t.Inv := by
  cases i with
  | nop => cases ht; exact h
  | init => exact h.init hp ht
  | byte d => exact h.byte hp ht
  | final => exact h.final hp ht
  | pad => exact h.pad hp ht
  | load => exact h.load hp ht
  | round => exact h.round hp ht
  | update => exact h.update hp ht
  | finish => exact h.finish hp ht

end State.Inv

/-! ### What a step can have done, by what the edge selected (30_encoding R74) -/

/-- A command is performed in `P_ABSORB` (40_commands R100). -/
theorem phaseOf_decodeCommand (w : BitVec 10) : (decodeCommand w).phaseOf = Phase.absorb := by
  unfold decodeCommand
  split_ifs <;> rfl

/-- An internal operation is performed in the phase of its own code (30_encoding R75). -/
theorem phaseOf_decodePhase {p : Phase} {i : Instr} (h : decodePhase p = .ok i) : i.phaseOf = p := by
  rcases decodePhase_ok h with ⟨rfl, rfl⟩ | ⟨rfl, rfl⟩ | ⟨rfl, rfl⟩ | ⟨rfl, rfl⟩ | ⟨rfl, rfl⟩ <;> rfl

section Select

variable {s t : State}

theorem step_select_reset (h : select s.pins s.phase = .reset) : step s = .next s.takeEdge.resetRegisters := by
  simp only [step, h]

theorem step_select_idle (h : select s.pins s.phase = .idle) : step s = .next s.takeEdge := by
  simp only [step, h]

theorem step_select_run {i : Instr} (h : select s.pins s.phase = .run i) : step s = exec i s.takeEdge := by
  simp only [step, h]

/-- A step that answers a next state is a reset, idle, or an operation in its own phase. -/
theorem step_cases_select (h : step s = .next t) :
    (select s.pins s.phase = .reset ∧ t = s.takeEdge.resetRegisters) ∨
    (select s.pins s.phase = .idle ∧ t = s.takeEdge) ∨
    ∃ i, select s.pins s.phase = .run i ∧ s.phase = i.phaseOf ∧ exec i s.takeEdge = .next t := by
  obtain ⟨hr, ht⟩ | ⟨hr, hp, hv, ht⟩ | ⟨hr, hp, hv, ht⟩ | ⟨hr, -, i, hi, ht⟩ := step_cases h
  · exact .inl ⟨select_reset _ hr, ht⟩
  · exact .inr (.inl ⟨by rw [hp, select_idle hr hv], ht⟩)
  · exact .inr (.inr ⟨_, by rw [hp, select_command hr hv], hp.trans (phaseOf_decodeCommand _).symm, ht⟩)
  · exact .inr (.inr ⟨i, select_operation hr hi, (phaseOf_decodePhase hi).symm, ht⟩)

end Select

/-- Settles O33: reset leaves a fresh call, an idle edge changes no register, and an operation runs in its own phase. -/
theorem stepKeepsTheInvariant : Obligations.StepKeepsTheInvariant := by
  intro s t h hstep
  obtain ⟨-, rfl⟩ | ⟨-, rfl⟩ | ⟨i, -, hp, ht⟩ := step_cases_select hstep
  · exact s.takeEdge.resetRegisters_fresh.inv rfl fun _ => rfl
  · exact h.takeEdge
  · exact h.takeEdge.of_exec hp ht

/-! ### The digest ports without a digest (10_state R35, 30_encoding R76, R80) -/

/-- The number whose base-256 digits are the bytes, the first byte most significant (30_encoding R76). -/
def bytesValue (l : List Byte) : Nat := l.foldl (fun acc x => 256 * acc + x.toNat) 0

theorem bytesToBits_eq (b : Vector Byte 64) : bytesToBits b = BitVec.ofNat 512 (bytesValue b.toList) := rfl

theorem bytesValue_concat (l : List Byte) (x : Byte) : bytesValue (l ++ [x]) = 256 * bytesValue l + x.toNat := by
  simp [bytesValue]

/-- Digit `k` from the least significant end is byte `k` from the last. -/
theorem bytesValue_digit (l : List Byte) (k : Nat) :
    bytesValue l / 256 ^ k % 256 = (l.reverse.getD k 0).toNat := by
  induction l using List.reverseRecOn generalizing k with
  | nil => simp [bytesValue]
  | append_singleton l x ih =>
    have hx : x.toNat < 256 := x.isLt
    rw [bytesValue_concat, List.reverse_concat]
    cases k with
    | zero => rw [Nat.pow_zero, Nat.div_one, List.getD_cons_zero]; omega
    | succ k =>
      have hdiv : (256 * bytesValue l + x.toNat) / 256 = bytesValue l := by omega
      rw [Nat.pow_succ', ← Nat.div_div_eq_div_mul, hdiv, ih, List.getD_cons_succ]

/-- A field of a bus that a number is put on: the bits of the number above the bus are not seen. -/
theorem ofNat_extractLsb'_toNat {w k n : Nat} (v : Nat) (h : k + n ≤ w) :
    ((BitVec.ofNat w v).extractLsb' k n).toNat = v / 2 ^ k % 2 ^ n := by
  obtain ⟨m, rfl⟩ := Nat.exists_eq_add_of_le h
  rw [BitVec.extractLsb'_toNat, BitVec.toNat_ofNat, Nat.shiftRight_eq_div_pow, Nat.add_assoc, Nat.pow_add,
    Nat.mod_mul_right_div_self, Nat.mod_mod_of_dvd _ (Nat.pow_dvd_pow 2 (Nat.le_add_right n m))]

/-- Byte `i` of the bus, `[511-8i : 504-8i]` (30_encoding R76). -/
theorem bytesToBits_extractLsb' (b : Vector Byte 64) (i : Fin 64) :
    (bytesToBits b).extractLsb' (504 - 8 * i.val) 8 = b[i] := by
  have hpow : 2 ^ (504 - 8 * i.val) = 256 ^ (63 - i.val) := by
    rw [show 504 - 8 * i.val = 8 * (63 - i.val) by omega, Nat.pow_mul]
  have hk : 63 - i.val < b.toList.length := by rw [Vector.length_toList]; omega
  have hrev : 63 - (63 - i.val) = i.val := by omega
  apply BitVec.eq_of_toNat_eq
  rw [bytesToBits_eq, ofNat_extractLsb'_toNat _ (by omega), hpow]
  refine (bytesValue_digit b.toList (63 - i.val)).trans ?_
  rw [List.getD_reverse _ hk]
  simp [hrev]

/-- Character `i` of the hex port (30_encoding R80). -/
theorem hexEncode_extractLsb' (d : BitVec 256) (i : Fin 64) :
    (hexEncode d).extractLsb' (504 - 8 * i.val) 8 = hexChar (nibble d i) := by
  rw [hexEncode, bytesToBits_extractLsb']
  simp [hexChars]

theorem State.digest_eq_zero {s : State} (h : s.DG = zeroWords) : s.digest = 0 := by
  rw [State.digest, h]
  decide

/-- Every character of the digest zero is `0`. -/
theorem State.digestHex_zero {s : State} (h : s.DG = zeroWords) (i : Fin 64) :
    s.digestHex.extractLsb' (504 - 8 * i.val) 8 = 0x30#8 := by
  have hnibble : nibble 0 i = 0 := by simp [nibble]
  rw [State.digestHex, State.digest_eq_zero h, hexEncode_extractLsb', hnibble]
  rfl

/-- Settles O9: the registers by the definition of the reset state, the ports because `DG` is zero. -/
theorem resetStateOfTheSpec : Obligations.ResetStateOfTheSpec := by
  have hDG : State.reset.DG = zeroWords := rfl
  refine ⟨fun i => ⟨rfl, ?_, ?_⟩, fun j => ⟨?_, ?_⟩, rfl, rfl, rfl, rfl, rfl, rfl, rfl, rfl, rfl,
    State.digest_eq_zero hDG, State.digestHex_zero hDG⟩ <;> simp [State.reset]

/-- Settles O52: without a digest the invariant has `DG` zero. -/
theorem digestPortsZeroWhileInvalid : Obligations.DigestPortsZeroWhileInvalid := by
  intro s h hv
  have hDG := h.digest_clear hv
  exact ⟨State.digest_eq_zero hDG, State.digestHex_zero hDG⟩

/-! ### Which operation writes which register (10_state R21 to R33) -/

/-- `BYTE` in one form for both cases: the next phase is all that the 64th byte changes. -/
theorem exec_byte_next {d : Byte} {s t : State} (h : exec (.byte d) s = .next t) :
    ∃ p, t = (s.storeByte d).clearDigest.advanceFill.setPhase p := by
  by_cases hf : s.fill = 63#6
  · rw [exec_byte_full d hf] at h
    cases h
    exact ⟨Phase.load, rfl⟩
  · rw [exec_byte_room d hf] at h
    cases h
    exact ⟨s.phase, rfl⟩

/-- `PAD` in one form for both visits: they differ in the block and in `last`. -/
theorem exec_pad_next {s t : State} (h : exec .pad s = .next t) :
    ∃ b l, t = (s.writeBlock b true l).setPhase Phase.load := by
  cases hm : s.mark with
  | false =>
    rw [exec_pad_first hm] at h
    cases h
    exact ⟨_, _, rfl⟩
  | true =>
    rw [exec_pad_second hm] at h
    cases h
    exact ⟨_, _, rfl⟩

/-- Settles O30, operation by operation: the named updates it is made of write no other register. -/
theorem eachRegisterHasItsWriters : Obligations.EachRegisterHasItsWriters := by
  intro i s t ht
  cases i with
  | nop => cases ht; simp
  | init => cases ht; simp [Instr.mnemonic]
  | byte d =>
    obtain ⟨p, rfl⟩ := exec_byte_next ht
    simp +contextual [Instr.mnemonic, State.storeByte_getElem]
  | final => cases ht; simp [Instr.mnemonic]
  | pad =>
    obtain ⟨b, l, rfl⟩ := exec_pad_next ht
    simp [Instr.mnemonic]
  | load => cases ht; simp [Instr.mnemonic]
  | round =>
    cases ht
    simp +contextual [Instr.mnemonic, State.storeW_getElem]
  | update => cases ht; simp [Instr.mnemonic]
  | finish => cases ht; simp [Instr.mnemonic]

/-! ### Only `FINISH` shows the hash state (10_state R21, R213) -/

/-- What an operation other than `FINISH` leaves in the digest register depends on nothing but that register: `INIT`,
`BYTE` and `FINAL` clear it, the others keep it. -/
theorem exec_digest_congr {i : Instr} {s s' t t' : State} (hi : i ≠ .finish) (hDG : s.DG = s'.DG)
    (hv : s.digestValid = s'.digestValid) (ht : exec i s = .next t) (ht' : exec i s' = .next t') :
    t.DG = t'.DG ∧ t.digestValid = t'.digestValid := by
  cases i with
  | byte d =>
    obtain ⟨p, rfl⟩ := exec_byte_next ht
    obtain ⟨p', rfl⟩ := exec_byte_next ht'
    exact ⟨rfl, rfl⟩
  | init => cases ht; cases ht'; exact ⟨rfl, rfl⟩
  | final => cases ht; cases ht'; exact ⟨rfl, rfl⟩
  | pad =>
    obtain ⟨b, l, rfl⟩ := exec_pad_next ht
    obtain ⟨b', l', rfl⟩ := exec_pad_next ht'
    exact ⟨hDG, hv⟩
  | nop => cases ht; cases ht'; exact ⟨hDG, hv⟩
  | load => cases ht; cases ht'; exact ⟨hDG, hv⟩
  | round => cases ht; cases ht'; exact ⟨hDG, hv⟩
  | update => cases ht; cases ht'; exact ⟨hDG, hv⟩
  | finish => exact absurd rfl hi

/-- Settles O35: the same thing is selected at both edges, and it is not `FINISH`. -/
theorem hashHiddenUntilFinish : Obligations.HashHiddenUntilFinish := by
  intro s s' t t' hphase hne hpins hDG hv ht ht'
  have key : t.DG = t'.DG ∧ t.digestValid = t'.digestValid := by
    obtain ⟨hsel, rfl⟩ | ⟨hsel, rfl⟩ | ⟨i, hsel, hp, hi⟩ := step_cases_select ht
    · rw [step_select_reset (hpins ▸ hphase ▸ hsel)] at ht'
      cases ht'
      exact ⟨rfl, rfl⟩
    · rw [step_select_idle (hpins ▸ hphase ▸ hsel)] at ht'
      cases ht'
      exact ⟨hDG, hv⟩
    · rw [step_select_run (hpins ▸ hphase ▸ hsel)] at ht'
      have hfin : i ≠ .finish := by
        rintro rfl
        exact hne hp
      exact exec_digest_congr (s := s.takeEdge) (s' := s'.takeEdge) hfin hDG hv hi ht'
  obtain ⟨hDG', hv'⟩ := key
  have hdigest : t.digest = t'.digest := by rw [State.digest, State.digest, hDG']
  exact ⟨hdigest, by rw [State.digestHex, State.digestHex, hdigest], hv'⟩

/-! ### What earlier calls left in `blk`, `W` and `V` reaches no port (10_state R38, R130) -/

/-- Two states that differ in residue only, and not in what an operation still to come reads: of `blk` the bytes below
`fill` while the block is filled and all of it while it is compressed, of `W` the words below `rnd`, and `V` between
`LOAD` and `UPDATE`. -/
structure State.AgreeOnLive (s s' : State) : Prop where
  same : s.sameButResidue s'
  bytes : s.phase = Phase.absorb ∨ s.phase = Phase.pad → ∀ j (_ : j < 64), j < s.fill.toNat → s.blk[j] = s'.blk[j]
  block : s.phase = Phase.load ∨ s.phase = Phase.round ∨ s.phase = Phase.update → s.blk = s'.blk
  working : s.phase = Phase.round ∨ s.phase = Phase.update → s.V = s'.V
  schedule : s.phase = Phase.round → ∀ j (_ : j < 64), j < s.rnd.toNat → s.W[j] = s'.W[j]

/-- The second state is the first with another residue. -/
theorem State.sameButResidue.exists_eq {s s' : State} (h : s.sameButResidue s') :
    ∃ b w v, s' = { s with blk := b, W := w, V := v } :=
  ⟨s'.blk, s'.W, s'.V, h.symm⟩

theorem State.sameButResidue.fill_eq {s s' : State} (h : s.sameButResidue s') : s'.fill = s.fill :=
  (congrArg State.fill h).symm

theorem State.sameButResidue.mark_eq {s s' : State} (h : s.sameButResidue s') : s'.mark = s.mark :=
  (congrArg State.mark h).symm

theorem State.sameButResidue.inputs_eq {s s' : State} (h : s.sameButResidue s') : s'.inputs = s.inputs :=
  (congrArg State.inputs h).symm

theorem State.sameButResidue.phase_eq {s s' : State} (h : s.sameButResidue s') : s'.phase = s.phase :=
  (congrArg State.phase h).symm

theorem State.sameButResidue.outputs_eq {s s' : State} (h : s.sameButResidue s') : s.outputs = s'.outputs := by
  obtain ⟨b, w, v, rfl⟩ := h.exists_eq
  rfl

/-! The functions of the datapath read the live part only -/

/-- The first padding block keeps the bytes below `fill` and no others (41_padder R123). -/
theorem firstPadBlock_congr {b b' : Block} {fill : BitVec 6} (lf : Vector Byte 8)
    (h : ∀ j (_ : j < 64), j < fill.toNat → b[j] = b'[j]) : firstPadBlock b fill lf = firstPadBlock b' fill lf := by
  ext j hj : 1
  rw [firstPadBlock_getElem, firstPadBlock_getElem]
  by_cases hlt : j < fill.toNat
  · rw [if_pos hlt, if_pos hlt, h j hj hlt]
  · rw [if_neg hlt, if_neg hlt]

/-- The schedule word of round `j` reads only words of earlier rounds (42_msg_schedule R143). -/
theorem schedWord_congr {j : Fin 64} (b : Block) {w w' : Words64} (h : ∀ i (_ : i < 64), i < j.val → w[i] = w'[i]) :
    schedWord j b w = schedWord j b w' := by
  unfold schedWord
  by_cases hj : j.val < 16
  · rw [dif_pos hj, dif_pos hj]
  · rw [dif_neg hj, dif_neg hj, h (j.val - 16) _ (by omega), h (j.val - 15) _ (by omega),
      h (j.val - 7) _ (by omega), h (j.val - 2) _ (by omega)]

/-- The same entry written at an index below which two vectors agree makes them agree up to it. -/
theorem getElem_set_congr_le {α : Type} {n k : Nat} {x y : Vector α n} {a a' : α} (hk : k < n) (ha : a = a')
    (h : ∀ j (_ : j < n), j < k → x[j] = y[j]) : ∀ j (_ : j < n), j ≤ k → (x.set k a hk)[j] = (y.set k a' hk)[j] := by
  intro j hj hle
  rw [Vector.getElem_set, Vector.getElem_set, ha]
  by_cases hkj : k = j
  · rw [if_pos hkj, if_pos hkj]
  · rw [if_neg hkj, if_neg hkj, h j hj (by omega)]

namespace State.AgreeOnLive

variable {s s' t t' : State}

/-- In a fresh call nothing of the residue is live. -/
theorem of_fresh (hs : s.Fresh) (h : s.sameButResidue s') : s.AgreeOnLive s' where
  same := h
  bytes := by simp [hs.fill_zero]
  block := by simp [hs.phase_absorb]
  working := by simp [hs.phase_absorb]
  schedule := by simp [hs.phase_absorb]

/-- The same pins are sampled. -/
theorem takeEdge (h : s.AgreeOnLive s') : s.takeEdge.AgreeOnLive s'.takeEdge := by
  obtain ⟨b, w, v, rfl⟩ := h.same.exists_eq
  exact { h with same := rfl }

theorem byte {d : Byte} (h : s.AgreeOnLive s') (hp : s.phase = Phase.absorb)
    (ht : exec (.byte d) s = .next t) (ht' : exec (.byte d) s' = .next t') : t.AgreeOnLive t' := by
  have hfill := h.same.fill_eq
  have hbytes := getElem_set_congr_le s.fill.isLt (Eq.refl d) (h.bytes (.inl hp))
  by_cases hf : s.fill = 63#6
  · rw [exec_byte_full d hf] at ht
    rw [exec_byte_full d (hfill.trans hf)] at ht'
    obtain ⟨b, w, v, rfl⟩ := h.same.exists_eq
    have hblk : s.blk.set s.fill.toNat d s.fill.isLt = b.set s.fill.toNat d s.fill.isLt :=
      Vector.ext fun j hj => hbytes j hj (by rw [hf]; exact Nat.le_of_lt_succ hj)
    cases ht
    cases ht'
    exact { same := rfl, bytes := by simp, block := fun _ => hblk, working := by simp, schedule := by simp }
  · rw [exec_byte_room d hf] at ht
    rw [exec_byte_room d (by rwa [hfill])] at ht'
    obtain ⟨b, w, v, rfl⟩ := h.same.exists_eq
    have hnext : (s.fill + 1).toNat = s.fill.toNat + 1 := by bv_omega
    cases ht
    cases ht'
    exact {
      same := rfl
      bytes := fun _ j hj hlt => hbytes j hj (Nat.le_of_lt_succ (hlt.trans_eq hnext))
      block := by simp [hp]
      working := by simp [hp]
      schedule := by simp [hp] }

theorem pad (h : s.AgreeOnLive s') (hp : s.phase = Phase.pad)
    (ht : exec .pad s = .next t) (ht' : exec .pad s' = .next t') : t.AgreeOnLive t' := by
  have hmark := h.same.mark_eq
  cases hm : s.mark with
  | false =>
    rw [exec_pad_first hm] at ht
    rw [exec_pad_first (hmark.trans hm)] at ht'
    have hblk := firstPadBlock_congr s.lengthField (h.bytes (.inr hp))
    obtain ⟨b, w, v, rfl⟩ := h.same.exists_eq
    cases ht
    cases ht'
    exact { same := rfl, bytes := by simp, block := fun _ => hblk, working := by simp, schedule := by simp }
  | true =>
    rw [exec_pad_second hm] at ht
    rw [exec_pad_second (hmark.trans hm)] at ht'
    obtain ⟨b, w, v, rfl⟩ := h.same.exists_eq
    cases ht
    cases ht'
    exact { same := rfl, bytes := by simp, block := fun _ => rfl, working := by simp, schedule := by simp }

theorem load (h : s.AgreeOnLive s') (hp : s.phase = Phase.load)
    (ht : exec .load s = .next t) (ht' : exec .load s' = .next t') : t.AgreeOnLive t' := by
  obtain ⟨b, w, v, rfl⟩ := h.same.exists_eq
  cases ht
  cases ht'
  exact {
    same := rfl
    bytes := by simp
    block := fun _ => h.block (.inl hp)
    working := fun _ => rfl
    schedule := by simp }

theorem round (h : s.AgreeOnLive s') (hp : s.phase = Phase.round)
    (ht : exec .round s = .next t) (ht' : exec .round s' = .next t') : t.AgreeOnLive t' := by
  have hblk := h.block (.inr (.inl hp))
  have hV := h.working (.inl hp)
  have hW := h.schedule hp
  obtain ⟨b, w, v, rfl⟩ := h.same.exists_eq
  obtain rfl : s.blk = b := hblk
  obtain rfl : s.V = v := hV
  have hword : s.roundWord = { s with W := w }.roundWord := schedWord_congr s.blk hW
  have hset := getElem_set_congr_le s.rnd.isLt hword hW
  have hnext (hround : s.phaseAfterRound = Phase.round) : (s.rnd + 1).toNat = s.rnd.toNat + 1 := by
    obtain ⟨-, hr⟩ | ⟨hupdate, -⟩ := s.phaseAfterRound_cases
    · bv_omega
    · simp [hupdate] at hround
  cases ht
  cases ht'
  exact {
    same := rfl
    bytes := by obtain ⟨e, -⟩ | ⟨e, -⟩ := s.phaseAfterRound_cases <;> simp [e]
    block := fun _ => Eq.refl s.blk
    working := fun _ => congrArg (roundFn s.V K[s.roundIndex]) hword
    schedule := fun hround j hj hlt => hset j hj (Nat.le_of_lt_succ (hlt.trans_eq (hnext hround))) }

theorem update (h : s.AgreeOnLive s') (hp : s.phase = Phase.update)
    (ht : exec .update s = .next t) (ht' : exec .update s' = .next t') : t.AgreeOnLive t' := by
  have hblk := h.block (.inr (.inr hp))
  have hV := h.working (.inr hp)
  obtain ⟨b, w, v, rfl⟩ := h.same.exists_eq
  obtain rfl : s.blk = b := hblk
  obtain rfl : s.V = v := hV
  cases ht
  cases ht'
  exact {
    same := rfl
    bytes := fun _ _ _ _ => rfl
    block := fun _ => rfl
    working := fun _ => rfl
    schedule := by obtain e | e | e := s.phaseAfterUpdate_cases <;> simp [e] }

/-- An operation performed in its own phase on both sides. -/
theorem of_exec {i : Instr} (h : s.AgreeOnLive s') (hp : s.phase = i.phaseOf)
    (ht : exec i s = .next t) (ht' : exec i s' = .next t') : t.AgreeOnLive t' := by
  cases i with
  | nop => cases ht; cases ht'; exact h
  | init =>
    have hfresh := exec_init_fresh ht
    obtain ⟨b, w, v, rfl⟩ := h.same.exists_eq
    cases ht
    cases ht'
    exact of_fresh hfresh rfl
  | byte d => exact h.byte hp ht ht'
  | final =>
    obtain ⟨b, w, v, rfl⟩ := h.same.exists_eq
    cases ht
    cases ht'
    exact {
      same := rfl
      bytes := fun _ => h.bytes (.inl hp)
      block := by simp
      working := by simp
      schedule := by simp }
  | pad => exact h.pad hp ht ht'
  | load => exact h.load hp ht ht'
  | round => exact h.round hp ht ht'
  | update => exact h.update hp ht ht'
  | finish =>
    have hfresh := exec_finish_fresh ht
    obtain ⟨b, w, v, rfl⟩ := h.same.exists_eq
    cases ht
    cases ht'
    exact of_fresh hfresh rfl

theorem of_step (h : s.AgreeOnLive s') (ht : step s = .next t) (ht' : step s' = .next t') : t.AgreeOnLive t' := by
  have hsel : select s'.pins s'.phase = select s.pins s.phase := by
    rw [pins, h.same.inputs_eq, h.same.phase_eq, pins]
  obtain ⟨hs, rfl⟩ | ⟨hs, rfl⟩ | ⟨i, hs, hp, hi⟩ := step_cases_select ht
  · rw [step_select_reset (hsel.trans hs)] at ht'
    obtain ⟨b, w, v, rfl⟩ := h.same.exists_eq
    cases ht'
    exact of_fresh s.takeEdge.resetRegisters_fresh rfl
  · rw [step_select_idle (hsel.trans hs)] at ht'
    cases ht'
    exact h.takeEdge
  · rw [step_select_run (hsel.trans hs)] at ht'
    exact h.takeEdge.of_exec hp hi ht'

end State.AgreeOnLive

/-- A run that answers has answered at its first edge. -/
theorem exists_step_of_run {k : Nat} {s t : State} (h : run (k + 1) s = .next t) :
    ∃ u, step s = .next u ∧ run k u = .next t := by
  rw [run] at h
  cases hs : step s with
  | next u => exact ⟨u, rfl, by rwa [hs] at h⟩
  | fault f => cases f
  | refused r => rw [hs] at h; cases h

theorem State.AgreeOnLive.of_run {k : Nat} {s s' t t' : State} (h : s.AgreeOnLive s') (ht : run k s = .next t)
    (ht' : run k s' = .next t') : t.AgreeOnLive t' := by
  induction k generalizing s s' with
  | zero => cases ht; cases ht'; exact h
  | succ k ih =>
    obtain ⟨u, hu, hrun⟩ := exists_step_of_run ht
    obtain ⟨u', hu', hrun'⟩ := exists_step_of_run ht'
    exact ih (h.of_step hu hu') hrun hrun'

/-- Settles O36: the two runs agree on what is live, and no port shows the residue itself. -/
theorem residueNeverReachesAPort : Obligations.ResidueNeverReachesAPort := by
  intro s s' t t' k hs h ht ht'
  exact ((State.AgreeOnLive.of_fresh hs h).of_run ht ht').same.outputs_eq

end Sys2Proof.Machine

/-! ## 30_encoding: words and codes, the edge, formats and ports, and the line `HASH` -/

namespace Sys2Proof.Machine

/-! ### The fields of a command word (30_encoding R70, R73) -/

/-- Two fields side by side as a number. -/
theorem toNat_append_eq_add {m n : Nat} (x : BitVec m) (y : BitVec n) :
    (x ++ y).toNat = x.toNat * 2 ^ n + y.toNat := by
  rw [BitVec.toNat_append, ← Nat.shiftLeft_add_eq_or_of_lt y.isLt, Nat.shiftLeft_eq]

@[simp] theorem cmdOpOf_cmdWord (op : BitVec 2) (d : Byte) : cmdOpOf (cmdWord op d) = op :=
  BitVec.extractLsb'_append_eq_left

@[simp] theorem cmdDataOf_cmdWord (op : BitVec 2) (d : Byte) : cmdDataOf (cmdWord op d) = d :=
  BitVec.extractLsb'_append_eq_right

/-- Every command word is made of its two fields. -/
theorem cmdWord_fields (w : BitVec 10) : cmdWord (cmdOpOf w) (cmdDataOf w) = w :=
  BitVec.extractLsb'_append_extractLsb' (w := 2) (len := 8)

/-- The four values of the field `op` (R72). -/
theorem cmdOp_cases (op : BitVec 2) : op = 0b00#2 ∨ op = 0b01#2 ∨ op = 0b10#2 ∨ op = 0b11#2 := by
  revert op; decide

@[simp] theorem decodeCommand_nop (d : Byte) : decodeCommand (cmdWord 0b00#2 d) = .nop := by
  simp [decodeCommand]

@[simp] theorem decodeCommand_init (d : Byte) : decodeCommand (cmdWord 0b01#2 d) = .init := by
  simp [decodeCommand]

@[simp] theorem decodeCommand_byte (d : Byte) : decodeCommand (cmdWord 0b10#2 d) = .byte d := by
  simp [decodeCommand]

@[simp] theorem decodeCommand_final (d : Byte) : decodeCommand (cmdWord 0b11#2 d) = .final := by
  simp [decodeCommand]

/-! ### The canonical word of an operation, and the numbers that stand for words (R72, R73, R75) -/

theorem decode_encode (i : Instr) : decode (encode i) = .ok i := by
  cases i with
  | nop => exact congrArg _ (decodeCommand_nop 0)
  | init => exact congrArg _ (decodeCommand_init 0)
  | byte d => exact congrArg _ (decodeCommand_byte d)
  | final => exact congrArg _ (decodeCommand_final 0)
  | pad => exact decodePhase_pad
  | load => exact decodePhase_load
  | round => exact decodePhase_round
  | update => exact decodePhase_update
  | finish => exact decodePhase_finish

/-- A phase code is its own number of one byte, a command word its own number of two. -/
theorem exists_codeOfNat (c : Code) : ∃ nbits w, codeOfNat nbits w = .ok c := by
  cases c with
  | cmd10 w =>
    have hw : w.toNat < 1024 := w.isLt
    exact ⟨16, w.toNat, by simp [codeOfNat, hw]⟩
  | phase3 p =>
    have hp : p.toNat < 8 := p.isLt
    exact ⟨8, p.toNat, by simp [codeOfNat, hp]⟩

theorem decodeTableWord_of_codeOfNat {nbits w : Nat} {c : Code} {i : Instr} (hc : codeOfNat nbits w = .ok c)
    (hi : decode c = .ok i) : decodeTableWord nbits w = some i := by
  have h : decodeNat nbits w = .ok i := by rw [decodeNat, hc]; exact hi
  rw [decodeTableWord, h]

/-- Settles O2: the decoder reads the canonical word, and with it any number that stands for that word. -/
theorem decodeOfEncode : Obligations.DecodeOfEncode := by
  intro i
  obtain ⟨nbits, w, hw⟩ := exists_codeOfNat (encode i)
  exact ⟨decode_encode i, nbits, w, hw, decodeTableWord_of_codeOfNat hw (decode_encode i)⟩

/-! ### The rows of the table -/

/-- The canonical word of every operation is in the row of its mnemonic and in no other. -/
theorem tableRow_statement (i : Instr) : Laws.TableRow.Statement i := by
  cases i with
  | nop => exact Laws.TableRow.nop
  | init => exact Laws.TableRow.init
  | byte d => exact Laws.TableRow.byte d
  | final => exact Laws.TableRow.final
  | pad => exact Laws.TableRow.pad
  | load => exact Laws.TableRow.load
  | round => exact Laws.TableRow.round
  | update => exact Laws.TableRow.update
  | finish => exact Laws.TableRow.finish

/-- The mask of the command rows keeps the field `op` and clears the data bits. -/
theorem cmdWord_and_mask (op : BitVec 2) (d : Byte) : cmdWord op d &&& 0x300#10 = cmdWord op 0 := by
  have hmask : 0x300#10 = 0b11#2 ++ 0#8 := rfl
  have hop : op &&& 0b11#2 = op := BitVec.and_allOnes
  rw [cmdWord, hmask, BitVec.and_append, hop, BitVec.and_zero]
  rfl

/-- Which row a command word is in depends on its masked bits. -/
theorem matchesRow_congr_mask {w w' : BitVec 10} (h : w &&& 0x300#10 = w' &&& 0x300#10) (j : Instr) :
    matchesRow j (.cmd10 w) = matchesRow j (.cmd10 w') := by
  cases j <;> simp only [matchesRow, h]

/-- A command word and the canonical word of its operation have the same field `op`. -/
theorem encode_decodeCommand (op : BitVec 2) (d : Byte) :
    ∃ d', encode (decodeCommand (cmdWord op d)) = .cmd10 (cmdWord op d') := by
  rcases cmdOp_cases op with rfl | rfl | rfl | rfl
  · exact ⟨0, by rw [decodeCommand_nop, encode]⟩
  · exact ⟨0, by rw [decodeCommand_init, encode]⟩
  · exact ⟨d, by rw [decodeCommand_byte, encode]⟩
  · exact ⟨0, by rw [decodeCommand_final, encode]⟩

/-- A command word meets the same rows as the canonical word of the operation it decodes to. -/
theorem matchesRow_encode_decodeCommand (w : BitVec 10) (j : Instr) :
    matchesRow j (.cmd10 w) = matchesRow j (encode (decodeCommand w)) := by
  obtain ⟨d, hd⟩ := encode_decodeCommand (cmdOpOf w) (cmdDataOf w)
  rw [← cmdWord_fields w, hd]
  exact matchesRow_congr_mask (by rw [cmdWord_and_mask, cmdWord_and_mask]) j

/-- Settles O3: a word is in the row of the canonical word of its operation. -/
theorem everyCommandWordHasOneRow : Obligations.EveryCommandWordHasOneRow := by
  intro w
  refine ⟨decodeCommand w, rfl, fun j => ?_⟩
  rw [matchesRow_encode_decodeCommand]
  exact tableRow_statement (decodeCommand w) j

/-- Settles O1: each word is made of its two fields, and the phase codes and numbers are read off the tables. -/
theorem specWordsDecode : Obligations.SpecWordsDecode :=
  ⟨congrArg _ (decodeCommand_nop 0x00#8), congrArg _ (decodeCommand_nop 0xff#8),
    congrArg _ (decodeCommand_init 0x00#8), congrArg _ (decodeCommand_init 0xa5#8),
    congrArg _ (decodeCommand_byte 0x61#8), congrArg _ (decodeCommand_byte 0xff#8),
    congrArg _ (decodeCommand_final 0x00#8), congrArg _ (decodeCommand_final 0xff#8),
    decodePhase_pad, decodePhase_load, decodePhase_round, decodePhase_update, decodePhase_finish,
    decodeTableWord_of_codeOfNat (c := encode (.byte 0x80#8)) rfl (decode_encode _),
    decodeTableWord_of_codeOfNat (c := encode .round) rfl (decode_encode _), rfl⟩

/-- The canonical word of `BYTE d` as a number (R73). -/
theorem cmdWord_byte_eq_add (d : Byte) : cmdWord 0b10#2 d = 0x200#10 + d.setWidth 10 := by
  have hd := d.isLt
  apply BitVec.eq_of_toNat_eq
  rw [cmdWord, toNat_append_eq_add]
  simp only [BitVec.toNat_add, BitVec.toNat_setWidth, BitVec.toNat_ofNat]
  omega

/-- Settles O4: decoding reads the data bits for `BYTE` alone. -/
theorem dataBitsOfCommands : Obligations.DataBitsOfCommands :=
  ⟨fun d => ⟨decodeCommand_nop d, decodeCommand_init d, decodeCommand_byte d, decodeCommand_final d⟩,
    rfl, rfl, rfl, fun d => congrArg Code.cmd10 (cmdWord_byte_eq_add d)⟩

/-- A phase code selects the operation whose canonical code it is. -/
theorem decodePhase_eq_ok_iff (p : Phase) (i : Instr) : decodePhase p = .ok i ↔ encode i = .phase3 p := by
  constructor
  · intro h
    obtain ⟨rfl, rfl⟩ | ⟨rfl, rfl⟩ | ⟨rfl, rfl⟩ | ⟨rfl, rfl⟩ | ⟨rfl, rfl⟩ := decodePhase_ok h <;> rfl
  · intro h
    exact (congrArg decode h).symm.trans (decode_encode i)

/-- The mask of the phase rows keeps all three bits, so a row holds one code. -/
theorem matchesRow_phase3_iff (p : Phase) (i : Instr) : matchesRow i (.phase3 p) = true ↔ encode i = .phase3 p := by
  have hrow (c : Phase) : (p &&& 0x7#3 == c) = true ↔ Code.phase3 c = .phase3 p := by
    have hmask : p &&& 0x7#3 = p := BitVec.and_allOnes
    rw [hmask, beq_iff_eq, Code.phase3.injEq, eq_comm]
  cases i with
  | nop => simp [matchesRow, encode]
  | init => simp [matchesRow, encode]
  | byte d => simp [matchesRow, encode]
  | final => simp [matchesRow, encode]
  | pad => exact hrow _
  | load => exact hrow _
  | round => exact hrow _
  | update => exact hrow _
  | finish => exact hrow _

/-- Settles O5: the row of a phase code is that of its operation, and the two errors are read off code by code. -/
theorem phaseCodesDecode : Obligations.PhaseCodesDecode := by
  intro p
  refine ⟨fun i => (decodePhase_eq_ok_iff p i).trans (matchesRow_phase3_iff p i).symm, ?_⟩
  rcases Phase.cases p with rfl | rfl | rfl | rfl | rfl | rfl | rfl | rfl <;> simp [decode]

/-! ### The order of decoding at an edge (R74, R83, R86) -/

section Edge

variable {s : State}

theorem step_reset (hr : s.pins.rst = true) : step s = .next s.takeEdge.resetRegisters :=
  step_select_reset (select_reset _ hr)

theorem step_idle (hr : s.pins.rst = false) (hp : s.phase = Phase.absorb) (hv : s.pins.cmdValid = false) :
    step s = .next s.takeEdge :=
  step_select_idle (by rw [hp, select_idle hr hv])

/-- While the core is busy the command pins are not looked at. -/
theorem select_eq_of_busy {p q : PinSample} {c : Phase} (hp : p.rst = false) (hq : q.rst = false)
    (hc : c ≠ Phase.absorb) : select p c = select q c := by
  simp only [select, hp, hq, if_neg hc]

theorem step_withPins_congr {p q : PinSample} (h : select p s.phase = select q s.phase) :
    step (s.withPins p) = step (s.withPins q) := by
  simp only [step, State.pins_withPins, State.withPins_phase, State.takeEdge_withPins, h]

/-- Phase codes 6 and 7 select nothing (R86). -/
theorem select_reserved {p : PinSample} {c : Phase} (hr : p.rst = false) (hc : c = 6#3 ∨ c = 7#3) :
    select p c = .reserved c := by
  rcases hc with rfl | rfl <;> simp [select, hr]

end Edge

/-- Settles O6, clause by clause. -/
theorem stepFollowsTheOrderOfDecoding : Obligations.StepFollowsTheOrderOfDecoding := by
  intro s
  refine ⟨step_reset, step_idle, fun i hr hp hv hi => ?_, fun i hr _ hi => step_operation hr hi⟩
  cases hi
  exact step_command hr hp hv

/-- Settles O7: what is selected is the presented command in `P_ABSORB`, else the operation of the phase code. -/
theorem stepRunsOnlyOperationsOfThePhase : Obligations.StepRunsOnlyOperationsOfThePhase := by
  intro s i hsel
  obtain ⟨t, ht⟩ := exec_answers i s.takeEdge
  obtain ⟨h, -⟩ | ⟨h, -⟩ | ⟨j, h, hp, -⟩ := step_cases_select ((step_select_run hsel).trans ht)
  · rw [hsel] at h; cases h
  · rw [hsel] at h; cases h
  · rw [hsel] at h
    cases h
    simp [Instr.wellFormedIn, hp]

/-- Settles O11: busy, the phase decides; without `cmd_valid`, also in `P_ABSORB` nothing of the word is read. -/
theorem wordsNotPresentedToAReadyCoreAreIgnored : Obligations.WordsNotPresentedToAReadyCoreAreIgnored := by
  intro s p q hp hq
  refine ⟨fun hbusy => ⟨step_withPins_congr (select_eq_of_busy hp hq hbusy), ?_⟩,
    fun hvp hvq => ⟨step_withPins_congr ?_, ?_⟩, fun hready hv => ?_⟩
  · exact if_neg fun ⟨_, _, h⟩ => hbusy h
  · by_cases hready : s.phase = Phase.absorb
    · rw [hready, select_idle hp hvp, select_idle hq hvq]
    · exact select_eq_of_busy hp hq hready
  · exact if_neg fun ⟨_, h, _⟩ => by simp [hvp] at h
  · exact if_pos ⟨hp, hv, hready⟩

/-- Settles O12: the reserved code is seen after `rst` and stops the step. -/
theorem reservedPhaseRefusedUntilReset : Obligations.ReservedPhaseRefusedUntilReset := by
  intro s hphase
  refine ⟨fun hr => ?_, step_reset⟩
  simp only [step, select_reserved hr hphase]

/-! ### Words and bytes (30_encoding R76, R77, R79) -/

/-- A field of a field is a field of the whole. -/
theorem extractLsb'_extractLsb' {w : Nat} (x : BitVec w) {a b m n : Nat} (h : a + n ≤ m) :
    (x.extractLsb' b m).extractLsb' a n = x.extractLsb' (b + a) n := by
  ext i hi
  have him : a + i < m := by omega
  simp [him, Nat.add_assoc]

/-- Four neighbouring bytes of a bus are a word of it, the first byte most significant. -/
theorem extractLsb'_four_bytes {w : Nat} (x : BitVec w) (k : Nat) :
    x.extractLsb' (k + 24) 8 ++ x.extractLsb' (k + 16) 8 ++ x.extractLsb' (k + 8) 8 ++ x.extractLsb' k 8 =
      x.extractLsb' k 32 := by
  rw [BitVec.extractLsb'_append_extractLsb'_eq_extractLsb' (by omega),
    BitVec.extractLsb'_append_extractLsb'_eq_extractLsb' (by omega),
    BitVec.extractLsb'_append_extractLsb'_eq_extractLsb' (by omega)]

theorem be32_toNat (b0 b1 b2 b3 : Byte) :
    (be32 b0 b1 b2 b3).toNat = b0.toNat * 2 ^ 24 + b1.toNat * 2 ^ 16 + b2.toNat * 2 ^ 8 + b3.toNat := by
  rw [be32, toNat_append_eq_add, toNat_append_eq_add, toNat_append_eq_add]
  omega

/-- Settles O29: the first byte is the highest of the word and each slice falls on one byte. -/
theorem bigEndianWords : Obligations.BigEndianWords := by
  intro b0 b1 b2 b3
  refine ⟨be32_toNat b0 b1 b2 b3, ?_, ?_, ?_, ?_⟩ <;> apply BitVec.eq_of_toNat_eq <;>
    rw [BitVec.extractLsb'_toNat, be32_toNat, Nat.shiftRight_eq_div_pow] <;> omega

/-- Eight words as a number, word 0 most significant (R79). -/
theorem wordsToBits_toNat (v : Words8) :
    (wordsToBits v).toNat =
      v[0].toNat * 2 ^ 224 + v[1].toNat * 2 ^ 192 + v[2].toNat * 2 ^ 160 + v[3].toNat * 2 ^ 128 +
        v[4].toNat * 2 ^ 96 + v[5].toNat * 2 ^ 64 + v[6].toNat * 2 ^ 32 + v[7].toNat := by
  rw [wordsToBits]
  iterate 7 rw [toNat_append_eq_add]
  omega

/-- Word `i` of the 256 bits, `[255-32i : 224-32i]` (R79). -/
theorem wordsToBits_extractLsb' (v : Words8) (i : Fin 8) :
    (wordsToBits v).extractLsb' (224 - 32 * i.val) 32 = v[i] := by
  apply BitVec.eq_of_toNat_eq
  rw [BitVec.extractLsb'_toNat, wordsToBits_toNat, Nat.shiftRight_eq_div_pow]
  fin_cases i <;> simp only [Fin.getElem_fin] <;> omega

/-- Settles O48: a byte of the port is a byte of one word of it. -/
theorem digestPortWordsAndBytes : Obligations.DigestPortWordsAndBytes := by
  intro s
  refine ⟨wordsToBits_extractLsb' s.DG, fun k => ?_⟩
  have hword : (Fin.ofNat 8 (k.val / 4)).val = k.val / 4 := Nat.mod_eq_of_lt (by omega)
  have hpos : 224 - 32 * (k.val / 4) + (24 - 8 * (k.val % 4)) = 248 - 8 * k.val := by omega
  rw [← wordsToBits_extractLsb', extractLsb'_extractLsb' _ (by omega), hword, hpos]
  rfl

/-- Word `t` of the block bus is block word `t` (R76). -/
theorem busWord_bytesToBits (b : Block) (t : Fin 16) : busWord (bytesToBits b) t = blockWord b t := by
  have hbyte (j k : Nat) (hj : k + 8 * j = 24) :
      (bytesToBits b).extractLsb' (480 - 32 * t.val + k) 8 = b[4 * t.val + j] := by
    have hpos : 480 - 32 * t.val + k = 504 - 8 * (4 * t.val + j) := by omega
    rw [hpos]
    exact bytesToBits_extractLsb' b ⟨4 * t.val + j, by omega⟩
  rw [busWord, blockWord, be32, ← extractLsb'_four_bytes]
  exact congrArg₂ _ (congrArg₂ _ (congrArg₂ _ (hbyte 0 24 rfl) (hbyte 1 16 rfl)) (hbyte 2 8 rfl)) (hbyte 3 0 rfl)

/-- Settles O53: by bytes, and by words that are four neighbouring bytes. -/
theorem blockBusBytesAndWords : Obligations.BlockBusBytesAndWords := fun b =>
  ⟨bytesToBits_extractLsb' b, fun t => ⟨busWord_bytesToBits b t, busWord_bytesToBits b t⟩⟩

/-! ### The hex port (R80, R81) -/

/-- Nibble `i` from the most significant end is hexadecimal digit `63 - i` of the digest. -/
theorem nibble_toNat (d : BitVec 256) (i : Fin 64) : (nibble d i).toNat = d.toNat / 16 ^ (63 - i.val) % 16 := by
  have hpow : 2 ^ (252 - 4 * i.val) = 16 ^ (63 - i.val) := by
    rw [show 252 - 4 * i.val = 4 * (63 - i.val) by omega, Nat.pow_mul]
  rw [nibble, BitVec.extractLsb'_toNat, Nat.shiftRight_eq_div_pow, hpow]

theorem hexChar_toNat (v : BitVec 4) : (hexChar v).toNat = (if v.toNat ≤ 9 then 0x30 else 0x57) + v.toNat := by
  revert v; decide

theorem hexChar_injective : Function.Injective hexChar := by decide

/-- Settles O49: a character of the port is the code of its nibble, a nibble is a hexadecimal digit of the digest. -/
theorem hexPortCharacters : Obligations.HexPortCharacters := by
  intro d i
  rw [hexEncode_extractLsb', hexChar_toNat, nibble_toNat]

/-- Settles O50: a nibble is below 16, and `hexChar` puts 0 to 9 and 10 to 15 in the two ranges. -/
theorem hexCharactersAreLowercase : Obligations.HexCharactersAreLowercase := by
  intro s i
  have hv := (nibble s.digest i).isLt
  rw [State.digestHex, hexEncode_extractLsb', hexChar_toNat]
  split <;> omega

/-- The nibbles determine the digest: bit `j` is a bit of nibble `63 - j / 4`. -/
theorem nibble_ext {d d' : BitVec 256} (h : ∀ i, nibble d i = nibble d' i) : d = d' := by
  apply BitVec.eq_of_getLsbD_eq
  intro j hj
  have key (x : BitVec 256) : x.getLsbD j = (nibble x ⟨63 - j / 4, by omega⟩).getLsbD (j % 4) := by
    have hpos : 252 - 4 * (63 - j / 4) + j % 4 = j := by omega
    simp [nibble, Nat.mod_lt, hpos]
  rw [key, key, h]

/-- Settles O51: equal texts have equal characters, a character determines its nibble, the nibbles the digest. -/
theorem hexTextDeterminesTheDigest : Obligations.HexTextDeterminesTheDigest := by
  intro d d' h
  apply nibble_ext
  intro i
  apply hexChar_injective
  rw [← hexEncode_extractLsb', ← hexEncode_extractLsb', h]

/-! ### The length field (R78) -/

/-- The counter value with three zero bits appended is the bit length. -/
theorem len_append_zeros_toNat (n : BitVec 61) : (n ++ 0#3).toNat = 8 * n.toNat := by
  rw [toNat_append_eq_add, BitVec.toNat_ofNat]
  omega

theorem lengthField_getElem_toNat (n : BitVec 61) (k : Fin 8) :
    (lengthField n)[k].toNat = 8 * n.toNat / 256 ^ (7 - k.val) % 256 := by
  have hpow : 2 ^ (56 - 8 * k.val) = 256 ^ (7 - k.val) := by
    rw [show 56 - 8 * k.val = 8 * (7 - k.val) by omega, Nat.pow_mul]
  rw [lengthField, Fin.getElem_fin, be64_getElem, BitVec.extractLsb'_toNat, len_append_zeros_toNat,
    Nat.shiftRight_eq_div_pow, hpow]

/-- Eight times the counter modulo its width is the bit length modulo `2 ^ LEN_FIELD_BITS`. -/
theorem eight_mul_mod_counter (b : LenFieldBits) (n : Nat) : 8 * (n % 2 ^ (b.width - 3)) = 8 * n % 2 ^ b.width := by
  cases b <;> simp only [LenFieldBits.width] <;> omega

/-- The field that `PAD` sees after `n` bytes is the one of `Pad(M)` (41_padder R121). -/
theorem State.lengthField_toList {s : State} {n : Nat}
    (h : s.len.toNat = n % 2 ^ (Config.lenFieldBits.width - 3)) :
    s.lengthField.toList = lengthBytes Config.lenFieldBits n := by
  have hbits : s.lenValue ++ 0#3 = BitVec.ofNat 64 (8 * n % 2 ^ Config.lenFieldBits.width) := by
    have hlt := (s.lenValue ++ 0#3).isLt
    apply BitVec.eq_of_toNat_eq
    rw [len_append_zeros_toNat, State.lenValue_toNat, LenFieldBits.counterBits_eq, h, Nat.mod_mod,
      eight_mul_mod_counter] at hlt ⊢
    rw [BitVec.toNat_ofNat, Nat.mod_eq_of_lt hlt]
  rw [lengthBytes, ← hbits]
  rfl

/-- With `LEN_FIELD_BITS = 32` the bit length is below `2 ^ 32`. -/
theorem lengthField_bits32_high (n : BitVec 61) (k : Fin 8) (hk : k.val < 4) :
    (lengthField (lenMod .bits32 n))[k] = 0 := by
  have hlen : (lenMod .bits32 n).toNat < 2 ^ 29 := by
    rw [lenMod_toNat]
    exact Nat.mod_lt _ (by decide)
  have hpow : 256 ^ 4 ≤ 256 ^ (7 - k.val) := Nat.pow_le_pow_right (by decide) (by omega)
  apply BitVec.eq_of_toNat_eq
  rw [lengthField_getElem_toNat, Nat.div_eq_of_lt (by omega)]
  rfl

/-- Settles O22: the bytes are base-256 digits of eight times the counter, which is the bit length modulo its width. -/
theorem lengthFieldIsBigEndian : Obligations.LengthFieldIsBigEndian := by
  refine ⟨fun s k => ?_, fun s n h => State.lengthField_toList h, lengthField_bits32_high⟩
  rw [← LenFieldBits.counterBits_eq, ← State.lenValue_toNat]
  exact lengthField_getElem_toNat s.lenValue k

/-! ### Edges at which the core is busy (R74, R83) -/

/-- The core goes from `s` to `t` over `k` edges at each of which the operation of its phase is performed, whatever the
command pins show (R83). -/
inductive BusyRun : Nat → State → State → Prop where
  | refl (s : State) : BusyRun 0 s s
  | edge {k : Nat} {s t u : State} {i : Instr} (hi : decodePhase s.phase = .ok i) (ht : exec i s.takeEdge = .next t)
      (hu : BusyRun k t u) : BusyRun (k + 1) s u

namespace BusyRun

variable {j k : Nat} {s t u : State}

theorem single {i : Instr} (hi : decodePhase s.phase = .ok i) (ht : exec i s.takeEdge = .next t) : BusyRun 1 s t :=
  .edge hi ht (.refl t)

theorem trans (hst : BusyRun j s t) (htu : BusyRun k t u) : BusyRun (j + k) s u := by
  induction hst with
  | refl s => rwa [Nat.zero_add]
  | edge hi ht _ ih =>
    rw [Nat.add_right_comm]
    exact .edge hi ht (ih htu)

end BusyRun

/-! ### One block (42_msg_schedule R144, 44_core_sequencer R179, R182, R186) -/

theorem sched_getElem (b : Block) (j : Nat) (h : j < 64) : (sched b)[j] = (schedList b 64).getD j 0 :=
  sched_get b ⟨j, h⟩

/-- The words of the schedule meet the recurrence that `ROUND` computes with. -/
theorem schedWord_sched (b : Block) (j : Fin 64) : schedWord j b (sched b) = (sched b)[j] := by
  have hearlier (i : Nat) (hi : i < j.val) : (schedList b j.val).getD i 0 = (schedList b 64).getD i 0 :=
    (schedList_getD_le b hi j.isLt.le).symm
  have hlast : (schedList b 64).getD j.val 0 = (schedList b (j.val + 1)).getD j.val 0 :=
    schedList_getD_le b (Nat.lt_succ_self _) j.isLt
  rw [sched_get, hlast, schedList, List.getD_append_right _ _ _ _ (schedList_length b _).le, schedList_length,
    Nat.sub_self, List.getD_cons_zero]
  unfold schedWord
  by_cases hj : j.val < 16
  · rw [dif_pos hj, dif_pos hj]
  · rw [dif_neg hj, dif_neg hj]
    simp only [sched_getElem]
    rw [hearlier _ (by omega), hearlier _ (by omega), hearlier _ (by omega), hearlier _ (by omega)]

/-- Round `j` computes word `j` of the schedule as soon as the earlier words are there. -/
theorem schedWord_of_earlier {b : Block} {w : Words64} {j : Fin 64}
    (h : ∀ i (_ : i < 64), i < j.val → w[i] = (sched b)[i]) : schedWord j b w = (sched b)[j] :=
  (schedWord_congr b h).trans (schedWord_sched b j)

/-- From `s` at `LOAD`: the state `LOAD` and then `j` rounds leave, with schedule register `w`. -/
def State.afterRounds (s : State) (j : Nat) (w : Words64) : State :=
  { s with
    V := roundsUpTo s.H (sched s.blk) j
    W := w
    rnd := BitVec.ofNat 6 j
    phase := if j = 64 then Phase.update else Phase.round
    inputs := s.inputs.drop (j + 1) }

/-- From `s` at `LOAD`: the state in which the block is compressed, with schedule register `w`. -/
def State.afterBlock (s : State) (w : Words64) : State :=
  { s with
    H := compress s.H s.blk
    V := rounds64 s.H (sched s.blk)
    W := w
    rnd := 0
    phase := s.phaseAfterUpdate
    inputs := s.inputs.drop 66 }

theorem exec_load_takeEdge (s : State) : exec .load s.takeEdge = .next (s.afterRounds 0 s.W) := by
  rw [exec_load, State.afterRounds, List.drop_one]
  rfl

/-- One round from the state after `j` rounds (R177). -/
theorem exec_round_afterRounds (s : State) {j : Nat} (hj : j < 64) {w : Words64}
    (hw : ∀ i (_ : i < 64), i < j → w[i] = (sched s.blk)[i]) :
    exec .round (s.afterRounds j w).takeEdge = .next (s.afterRounds (j + 1) (w.set j (sched s.blk)[j])) := by
  have hrnd : (BitVec.ofNat 6 j).toNat = j := Nat.mod_eq_of_lt hj
  have hidx : Fin.ofNat 64 j = ⟨j, hj⟩ := Fin.ext (Nat.mod_eq_of_lt hj)
  have hindex : (s.afterRounds j w).takeEdge.roundIndex = ⟨j, hj⟩ := Fin.ext hrnd
  have hword : (s.afterRounds j w).takeEdge.roundWord = (sched s.blk)[j] := by
    rw [State.roundWord, hindex]
    exact schedWord_of_earlier hw
  have hphase : (s.afterRounds j w).takeEdge.phaseAfterRound = if j + 1 = 64 then Phase.update else Phase.round := by
    have hiff : BitVec.ofNat 6 j = 63#6 ↔ j + 1 = 64 := by
      rw [← BitVec.toNat_inj, hrnd]
      exact Nat.succ_inj.symm
    simp only [State.phaseAfterRound, State.afterRounds, State.takeEdge, hiff]
  have hK : K[(s.afterRounds j w).takeEdge.roundIndex] = K[j] := by simp only [hindex, Fin.getElem_fin]
  have hnext : BitVec.ofNat 6 j + 1 = BitVec.ofNat 6 (j + 1) := by rw [BitVec.ofNat_add]; rfl
  rw [exec_round, hword, hK, hphase]
  simp only [State.afterRounds, State.takeEdge, State.storeW, State.setV, State.setRnd, State.setPhase, hrnd, hnext,
    roundsUpTo_succ, hidx, List.tail_drop]
  rfl

/-- `LOAD` and `j` rounds: the working variables are `V_j` of R182 and the first `j` schedule words are there. -/
theorem busyRun_rounds {s : State} (hp : s.phase = Phase.load) {j : Nat} (hj : j ≤ 64) :
    ∃ w, BusyRun (j + 1) s (s.afterRounds j w) ∧ ∀ i (_ : i < 64), i < j → w[i] = (sched s.blk)[i] := by
  induction j with
  | zero => exact ⟨s.W, .single (by rw [hp, decodePhase_load]) (exec_load_takeEdge s), by simp⟩
  | succ j ih =>
    obtain ⟨w, hrun, hw⟩ := ih (by omega)
    have hround : decodePhase (s.afterRounds j w).phase = .ok .round := by
      rw [State.afterRounds, if_neg (by omega), decodePhase_round]
    have hlast := BusyRun.single hround (exec_round_afterRounds s hj hw)
    refine ⟨w.set j (sched s.blk)[j], hrun.trans hlast, fun i hi hij => ?_⟩
    rw [Vector.getElem_set]
    split
    · next h => subst h; rfl
    · exact hw i hi (by omega)

/-- 66 edges from `LOAD` compress the block buffer into `H` (R179). -/
theorem busyRun_block {s : State} (hp : s.phase = Phase.load) : ∃ w, BusyRun 66 s (s.afterBlock w) := by
  obtain ⟨w, hrun, -⟩ := busyRun_rounds hp le_rfl
  refine ⟨w, hrun.trans (.single decodePhase_update ?_)⟩
  rw [exec_update]
  simp only [State.afterRounds, State.afterBlock, State.takeEdge, State.foldV, State.setPhase, List.tail_drop]
  rfl

/-! ### The blocks of a byte string (41_padder R128) -/

theorem blockAt_getElem (p : Message) (i j : Nat) (h : j < 64) : (blockAt p i)[j] = p.getD (64 * i + j) 0 :=
  blockAt_get p i ⟨j, h⟩

/-- The first `k` blocks of a byte string folded into `IV` (R187). -/
def hashBlocks (p : Message) (k : Nat) : Words8 := ((List.range k).map (blockAt p)).foldl compress IV

@[simp] theorem hashBlocks_zero (p : Message) : hashBlocks p 0 = IV := rfl

theorem hashBlocks_succ (p : Message) (k : Nat) : hashBlocks p (k + 1) = compress (hashBlocks p k) (blockAt p k) := by
  simp [hashBlocks, List.range_succ]

/-- What follows a block does not matter to it. -/
theorem blockAt_append {p : Message} (q : Message) {i : Nat} (h : 64 * (i + 1) ≤ p.length) :
    blockAt (p ++ q) i = blockAt p i := by
  ext j hj : 1
  rw [blockAt_getElem, blockAt_getElem, List.getD_append _ _ _ _ (by omega)]

theorem hashBlocks_append {p : Message} (q : Message) {k : Nat} (h : 64 * k ≤ p.length) :
    hashBlocks (p ++ q) k = hashBlocks p k := by
  induction k with
  | zero => rw [hashBlocks_zero, hashBlocks_zero]
  | succ k ih => rw [hashBlocks_succ, hashBlocks_succ, ih (by omega), blockAt_append q h]

/-! ### The padded message (41_padder R121, R124, R126) -/

/-- The zeros end where the last eight bytes of the last block begin. -/
theorem padZeros_end (n : Nat) : n + 1 + padZeros n + 8 = 64 * blockCount n := by
  obtain ⟨hlt, hmod⟩ := padZeros_spec n
  unfold blockCount
  split <;> omega

theorem pad_length (b : LenFieldBits) (m : Message) : (pad b m).length = 64 * blockCount m.length := by
  rw [← padZeros_end]
  simp only [pad, List.length_append, List.length_cons, List.length_replicate, lengthBytes_length]
  omega

/-- The digest is the blocks of the padded message folded into `IV`. -/
theorem digestOf_eq_hashBlocks (b : LenFieldBits) (m : Message) :
    digestOf b m = hashBlocks (pad b m) (blockCount m.length) := by
  rw [digestOf, blocks, pad_length, Nat.mul_div_cancel_left _ (by decide)]
  rfl

/-- The blocks that the message fills are those of the padded message. -/
theorem hashBlocks_pad (b : LenFieldBits) (m : Message) :
    hashBlocks (pad b m) (m.length / 64) = hashBlocks m (m.length / 64) := by
  rw [pad, List.append_assoc]
  exact hashBlocks_append _ (by omega)

/-! Byte by byte: the message, the marker, the zeros, the length field -/

section Layout

variable (b : LenFieldBits) (m : Message)

theorem pad_getD_message {i : Nat} (h : i < m.length) : (pad b m).getD i 0 = m.getD i 0 := by
  rw [pad, List.append_assoc, List.getD_append _ _ _ _ h]

theorem pad_getD_marker : (pad b m).getD m.length 0 = 0x80#8 := by
  rw [pad, List.append_assoc, List.getD_append_right _ _ _ _ le_rfl, Nat.sub_self]
  rfl

theorem pad_getD_zero {i : Nat} (h : m.length < i) (hi : i + 8 < 64 * blockCount m.length) :
    (pad b m).getD i 0 = 0x00#8 := by
  have hend := padZeros_end m.length
  obtain ⟨k, rfl⟩ := Nat.exists_eq_add_of_lt h
  have hk : m.length + k + 1 - m.length = k + 1 := by omega
  rw [pad, List.append_assoc, List.getD_append_right _ _ _ _ (by omega), hk, List.cons_append, List.getD_cons_succ,
    List.getD_append _ _ _ _ (by rw [List.length_replicate]; omega), List.getD_replicate _ (by omega)]

theorem pad_getD_length {i : Nat} (h : 64 * blockCount m.length ≤ i + 8) :
    (pad b m).getD i 0 = (lengthBytes b m.length).getD (i + 8 - 64 * blockCount m.length) 0 := by
  have hend := padZeros_end m.length
  have hl : (m ++ 0x80#8 :: List.replicate (padZeros m.length) 0x00#8).length = m.length + 1 + padZeros m.length := by
    simp only [List.length_append, List.length_cons, List.length_replicate]
    omega
  have hi : i - (m.length + 1 + padZeros m.length) = i + 8 - 64 * blockCount m.length := by omega
  rw [pad, List.getD_append_right _ _ _ _ (by omega), hl, hi]

end Layout

/-- An entry of a vector read from its list, as `Pad` reads the length field. -/
theorem getElem_eq_getD_toList {n : Nat} (v : Vector Byte n) {j : Nat} (h : j < n) : v[j] = v.toList.getD j 0 := by
  simp [h]

theorem blockCount_of_fits {n : Nat} (h : n % 64 ≤ 55) : blockCount n = n / 64 + 1 := by rw [blockCount, if_pos h]

theorem blockCount_of_not_fits {n : Nat} (h : ¬n % 64 ≤ 55) : blockCount n = n / 64 + 2 := by rw [blockCount, if_neg h]

/-- What the first `PAD` writes is the block of the padded message in which the message ends (R126, R129). -/
theorem firstPadBlock_eq_blockAt {blk : Block} {fill : BitVec 6} {lf : Vector Byte 8} {b : LenFieldBits} {m : Message}
    (hfill : fill.toNat = m.length % 64) (hlf : lf.toList = lengthBytes b m.length)
    (hblk : ∀ j (_ : j < 64), j < fill.toNat → blk[j] = m.getD (64 * (m.length / 64) + j) 0) :
    firstPadBlock blk fill lf = blockAt (pad b m) (m.length / 64) := by
  have hm : 64 * (m.length / 64) + m.length % 64 = m.length := Nat.div_add_mod _ _
  ext j hj : 1
  rw [firstPadBlock_getElem, blockAt_getElem]
  by_cases hlt : j < fill.toNat
  · rw [if_pos hlt, hblk j hj hlt, pad_getD_message b m (by omega)]
  rw [if_neg hlt]
  by_cases heq : j = fill.toNat
  · rw [if_pos heq, heq, hfill, hm, pad_getD_marker]
  rw [if_neg heq]
  by_cases hfits : m.length % 64 ≤ 55
  · have hcount := blockCount_of_fits hfits
    by_cases htail : 56 ≤ j
    · have hpos : 64 * (m.length / 64) + j + 8 - 64 * blockCount m.length = j - 56 := by omega
      rw [dif_pos ⟨htail, by omega⟩, getElem_eq_getD_toList, hlf, pad_getD_length b m (by omega), hpos]
    · rw [dif_neg (by omega), pad_getD_zero b m (by omega) (by omega)]
  · have hcount := blockCount_of_not_fits hfits
    rw [dif_neg (by omega), pad_getD_zero b m (by omega) (by omega)]

/-- What the second `PAD` writes is the block after it, if there is one (R126, R129). -/
theorem secondPadBlock_eq_blockAt {lf : Vector Byte 8} {b : LenFieldBits} {m : Message} (hfits : ¬m.length % 64 ≤ 55)
    (hlf : lf.toList = lengthBytes b m.length) : secondPadBlock lf = blockAt (pad b m) (m.length / 64 + 1) := by
  have hcount := blockCount_of_not_fits hfits
  ext j hj : 1
  rw [secondPadBlock_getElem, blockAt_getElem]
  by_cases htail : 56 ≤ j
  · have hpos : 64 * (m.length / 64 + 1) + j + 8 - 64 * blockCount m.length = j - 56 := by omega
    rw [dif_pos htail, getElem_eq_getD_toList, hlf, pad_getD_length b m (by omega), hpos]
  · rw [dif_neg htail, pad_getD_zero b m (by omega) (by omega)]

/-! ### The bytes of a call (40_commands R103, R104) -/

/-- A core that is ready again holds the bytes of `m` and nothing else of the call: their number, the last of them in
the block buffer, the complete blocks folded into `H` (R104). -/
structure State.Absorbed (s : State) (m : Message) : Prop where
  ready : s.phase = Phase.absorb
  flags : s.fin = false ∧ s.mark = false ∧ s.last = false
  fill : s.fill.toNat = m.length % 64
  len : s.len.toNat = m.length % 2 ^ (Config.lenFieldBits.width - 3)
  bytes : ∀ j (_ : j < 64), j < s.fill.toNat → s.blk[j] = m.getD (64 * (m.length / 64) + j) 0
  hash : s.H = hashBlocks m (m.length / 64)

theorem State.Fresh.absorbed {s : State} (hs : s.Fresh) : s.Absorbed [] where
  ready := hs.phase_absorb
  flags := hs.flags_zero
  fill := by simp [hs.fill_zero]
  len := by simp [hs.len_zero]
  bytes := by simp [hs.fill_zero]
  hash := hs.hash_iv

namespace State.Absorbed

variable {s t : State} {m : Message}

theorem takeEdge (h : s.Absorbed m) : s.takeEdge.Absorbed m := { h with }

/-- `BYTE d` puts `d` behind the bytes that the block buffer holds. -/
theorem storeByte_bytes (h : s.Absorbed m) (d : Byte) (j : Nat) (hj : j < 64) (hle : j ≤ s.fill.toNat) :
    (s.blk.set s.fill.toNat d s.fill.isLt)[j] = (m ++ [d]).getD (64 * (m.length / 64) + j) 0 := by
  have hm := Nat.div_add_mod m.length 64
  have hfill := h.fill
  rw [State.storeByte_getElem]
  by_cases heq : j = s.fill.toNat
  · have hpos : 64 * (m.length / 64) + j = m.length := by omega
    rw [if_pos heq, hpos, List.getD_append_right _ _ _ _ le_rfl, Nat.sub_self, List.getD_cons_zero]
  · rw [if_neg heq, h.bytes j hj (by omega), List.getD_append _ _ _ _ (by omega)]

theorem lenNext (h : s.Absorbed m) (d : Byte) :
    s.lenNext.toNat = (m ++ [d]).length % 2 ^ (Config.lenFieldBits.width - 3) := by
  rw [lenNext_toNat, LenFieldBits.counterBits_eq, h.len, Nat.mod_add_mod, List.length_append, List.length_singleton]

theorem hashBlocks_concat (h : s.Absorbed m) (d : Byte) : hashBlocks (m ++ [d]) (m.length / 64) = s.H := by
  rw [h.hash, hashBlocks_append _ (by omega)]

/-- A byte for which the block has room is absorbed at once. -/
theorem byte_room (h : s.Absorbed m) {d : Byte} (hroom : m.length % 64 ≠ 63) (ht : exec (.byte d) s = .next t) :
    t.Absorbed (m ++ [d]) := by
  have hfill := h.fill
  have hne : s.fill ≠ 63#6 := fun e => hroom (by rw [← hfill, e]; rfl)
  have hdiv : (m.length + 1) / 64 = m.length / 64 := by omega
  have hnext : (s.fill + 1).toNat = s.fill.toNat + 1 := by bv_omega
  rw [exec_byte_room d hne] at ht
  cases ht
  exact {
    ready := h.ready
    flags := h.flags
    fill := by
      simp only [advanceFill_fill, clearDigest_fill, storeByte_fill, List.length_append, List.length_singleton]
      omega
    len := h.lenNext d
    bytes := fun j hj hlt => by
      rw [List.length_append, List.length_singleton, hdiv]
      exact h.storeByte_bytes d j hj (Nat.le_of_lt_succ (hlt.trans_eq hnext))
    hash := by
      rw [List.length_append, List.length_singleton, hdiv, h.hashBlocks_concat d]
      rfl }

/-- The byte that fills the block is absorbed when the block has been compressed. -/
theorem byte_full (h : s.Absorbed m) {d : Byte} (hfull : m.length % 64 = 63) (ht : exec (.byte d) s = .next t) :
    ∃ u, BusyRun 66 t u ∧ u.Absorbed (m ++ [d]) := by
  have hfill := h.fill
  have hfill63 : s.fill = 63#6 := BitVec.eq_of_toNat_eq (hfill.trans hfull)
  have hdiv : (m.length + 1) / 64 = m.length / 64 + 1 := by omega
  have hmod : (m.length + 1) % 64 = 0 := by omega
  obtain ⟨hfin, -⟩ := h.flags
  rw [exec_byte_full d hfill63] at ht
  cases ht
  obtain ⟨w, hrun⟩ := busyRun_block (State.setPhase_phase (s.storeByte d).clearDigest.advanceFill Phase.load)
  have hzero : s.fill + 1 = 0 := by rw [hfill63]; rfl
  have hblk : s.blk.set s.fill.toNat d s.fill.isLt = blockAt (m ++ [d]) (m.length / 64) := by
    ext j hj : 1
    rw [h.storeByte_bytes d j hj (by omega), blockAt_getElem]
  refine ⟨_, hrun, ?_⟩
  exact {
    ready := (State.phaseAfterUpdate_eq_absorb _).mpr hfin
    flags := h.flags
    fill := by
      rw [List.length_append, List.length_singleton, hmod]
      exact congrArg BitVec.toNat hzero
    len := h.lenNext d
    bytes := fun j _ hlt => absurd (hlt.trans_eq (congrArg BitVec.toNat hzero)) (Nat.not_lt_zero j)
    hash := by
      rw [List.length_append, List.length_singleton, hdiv, hashBlocks_succ, h.hashBlocks_concat d, ← hblk]
      rfl }

end State.Absorbed

/-! ### From an accepted `FINAL` to the digest (40_commands R106, R107) -/

/-- `PAD` and the block it writes: 67 edges, after which `FINISH` is due if that was the last block. -/
theorem busyRun_pad {s : State} {b : Block} {l : Bool} (hp : s.phase = Phase.pad) (hfin : s.fin = true)
    (hpad : exec .pad s.takeEdge = .next ((s.takeEdge.writeBlock b true l).setPhase Phase.load)) :
    ∃ t, BusyRun 67 s t ∧ t.H = compress s.H b ∧ t.phase = (if l = true then Phase.finish else Phase.pad) ∧
      t.fin = true ∧ t.mark = true ∧ t.len = s.len := by
  obtain ⟨w, hrun⟩ := busyRun_block (State.setPhase_phase (s.takeEdge.writeBlock b true l) Phase.load)
  refine ⟨_, .edge (by rw [hp, decodePhase_pad]) hpad hrun, rfl, ?_, hfin, rfl, rfl⟩
  cases l with
  | true => exact (State.phaseAfterUpdate_eq_finish _).mpr ⟨hfin, rfl⟩
  | false => exact (State.phaseAfterUpdate_eq_pad _).mpr ⟨hfin, rfl⟩

theorem busyRun_finish {s : State} (hp : s.phase = Phase.finish) :
    ∃ t, BusyRun 1 s t ∧ t.DG = s.H ∧ t.digestValid = true ∧ t.Fresh :=
  ⟨_, .single (by rw [hp, decodePhase_finish]) (exec_finish _), rfl, rfl, exec_finish_fresh (exec_finish _)⟩

/-- After `FINAL` the core is busy for 68 or 135 edges and then holds the digest in a fresh call. -/
theorem State.Absorbed.final {s t : State} {m : Message} (h : s.Absorbed m) (ht : exec .final s = .next t) :
    ∃ u, BusyRun (finalEdges (m.length % 64)) t u ∧ u.DG = digestOf Config.lenFieldBits m ∧ u.digestValid = true ∧
      u.Fresh := by
  obtain ⟨-, hmark, -⟩ := h.flags
  have hfirst : firstPadBlock s.blk s.fill s.lengthField =
      blockAt (Sys2Proof.Machine.pad Config.lenFieldBits m) (m.length / 64) :=
    firstPadBlock_eq_blockAt h.fill (State.lengthField_toList h.len) h.bytes
  cases ht
  obtain ⟨u, hrun, hH, hphase, hfin, hmark', hlen⟩ :=
    busyRun_pad (s := s.closeMessage.clearDigest.setPhase Phase.pad) rfl rfl (exec_pad_first hmark)
  have hH' : u.H = hashBlocks (Sys2Proof.Machine.pad Config.lenFieldBits m) (m.length / 64 + 1) := by
    rw [hashBlocks_succ, hashBlocks_pad, ← h.hash, ← hfirst]
    exact hH
  have hfits : s.lengthFits = true ↔ m.length % 64 ≤ 55 := by rw [State.lengthFits, decide_eq_true_eq, h.fill]
  by_cases hle : m.length % 64 ≤ 55
  · have hfinish : u.phase = Phase.finish := hphase.trans (if_pos (hfits.mpr hle))
    obtain ⟨v, hrun', hDG, hv, hfresh⟩ := busyRun_finish hfinish
    refine ⟨v, ?_, ?_, hv, hfresh⟩
    · rw [finalEdges, if_pos hle]
      exact hrun.trans hrun'
    · rw [hDG, hH', digestOf_eq_hashBlocks, blockCount_of_fits hle]
  · have hpad : u.phase = Phase.pad := hphase.trans (if_neg (hfits.not.mpr hle))
    have hlf : u.lengthField.toList = lengthBytes Config.lenFieldBits m.length :=
      State.lengthField_toList ((congrArg BitVec.toNat hlen).trans h.len)
    obtain ⟨v, hrun', hHv, hphase', -⟩ := busyRun_pad hpad hfin (exec_pad_second hmark')
    obtain ⟨x, hrun'', hDG, hx, hfresh⟩ := busyRun_finish hphase'
    refine ⟨x, ?_, ?_, hx, hfresh⟩
    · rw [finalEdges, if_neg hle]
      exact (hrun.trans hrun').trans hrun''
    · rw [hDG, hHv, hH', digestOf_eq_hashBlocks, blockCount_of_not_fits hle, hashBlocks_succ _ (m.length / 64 + 1),
        ← secondPadBlock_eq_blockAt hle hlf]
      rfl

/-! ### The host that runs a command stream (R87, R88) -/

/-- A busy core that holds no digest holds none while it stays busy. -/
theorem digestValid_of_busy_edge {s t : State} {i : Instr} (hi : decodePhase s.phase = .ok i)
    (ht : exec i s.takeEdge = .next t) (hv : s.digestValid = false) :
    t.phase ≠ Phase.absorb → t.digestValid = false := by
  obtain ⟨-, rfl⟩ | ⟨-, rfl⟩ | ⟨-, rfl⟩ | ⟨-, rfl⟩ | ⟨-, rfl⟩ := decodePhase_ok hi
  · obtain ⟨b, l, rfl⟩ := exec_pad_next ht
    exact fun _ => hv
  · cases ht; exact fun _ => hv
  · cases ht; exact fun _ => hv
  · cases ht; exact fun _ => hv
  · cases ht; exact fun h => absurd rfl h

theorem byte_clears_digest {d : Byte} {s t : State} (ht : exec (.byte d) s = .next t) : t.digestValid = false := by
  obtain ⟨p, rfl⟩ := exec_byte_next ht
  rfl

theorem final_clears_digest {s t : State} (ht : exec .final s = .next t) : t.digestValid = false := by
  cases ht
  rfl

/-- What the host has to do does not change while the core is busy and no digest is held: it holds a command until it is
accepted, or waits for the digest. -/
def Stalls (acts : List HostAction) : Prop := ∃ p, p.rst = false ∧ drive false false acts = (p, acts)

theorem stalls_present (w : BitVec 10) (rest : List HostAction) : Stalls (.present w :: rest) := ⟨_, rfl, rfl⟩

theorem stalls_wait (rest : List HostAction) : Stalls (.wait :: rest) := ⟨_, rfl, rfl⟩

/-- One edge of the core with its host. -/
theorem hostRun_succ {s t : State} {p : PinSample} {acts acts' : List HostAction}
    (hd : drive s.cmdReady s.digestValid acts = (p, acts')) (ht : step (s.withPins p) = .next t) (k : Nat) :
    hostRun (k + 1) acts s = hostRun k acts' t := by
  simp only [hostRun, hd, ht]

/-- A command presented to a ready core is accepted at that edge. -/
theorem hostRun_present {s t : State} {w : BitVec 10} {rest : List HostAction} (hp : s.phase = Phase.absorb)
    (ht : exec (decodeCommand w) s.takeEdge = .next t) (k : Nat) :
    hostRun (k + 1) (.present w :: rest) s = hostRun k rest t := by
  have hready : s.cmdReady = true := by rw [State.cmdReady, hp]; rfl
  refine hostRun_succ (p := PinSample.present w) (by rw [hready]; rfl) ?_ k
  rw [step_command (s := s.withPins (PinSample.present w)) rfl hp rfl, State.pins_withPins, PinSample.present_word]
  exact ht

/-- The host stands still while the core is busy. -/
theorem hostRun_busyRun {j : Nat} {s t : State} {acts : List HostAction} (hst : BusyRun j s t) (hacts : Stalls acts)
    (hv : s.phase ≠ Phase.absorb → s.digestValid = false) (k : Nat) :
    hostRun (j + k) acts s = hostRun k acts t := by
  obtain ⟨p, hrst, hd⟩ := hacts
  induction hst with
  | refl s => rw [Nat.zero_add]
  | @edge j s t u i hi ht _ ih =>
    have hbusy : s.phase ≠ Phase.absorb := fun hp => by simp [hp] at hi
    have hready : s.cmdReady = false := beq_false_of_ne hbusy
    have hstep : step (s.withPins p) = .next t := (step_operation (s := s.withPins p) hrst hi).trans ht
    rw [Nat.add_right_comm, hostRun_succ (by rw [hready, hv hbusy]; exact hd) hstep]
    exact ih (digestValid_of_busy_edge hi ht (hv hbusy))

/-- A host that presents the bytes of a message to a fresh call: one edge for each, and 66 more for each block they
fill (R240). -/
theorem hostRun_bytes {s : State} (hs : s.Absorbed []) (m : Message) {rest : List HostAction} (hrest : Stalls rest) :
    ∃ t, t.Absorbed m ∧
      ∀ k, hostRun (m.length + 66 * (m.length / 64) + k) (m.map sendByte ++ rest) s = hostRun k rest t := by
  induction m using List.reverseRecOn generalizing rest with
  | nil => exact ⟨s, hs, fun k => by simp⟩
  | append_singleton m d ih =>
    obtain ⟨t, ht, hrun⟩ := ih (rest := sendByte d :: rest) (stalls_present _ _)
    obtain ⟨u, hu⟩ := exec_answers (.byte d) t.takeEdge
    have hbyte (k : Nat) : hostRun (k + 1) (sendByte d :: rest) t = hostRun k rest u :=
      hostRun_present ht.ready (by rw [decodeCommand_byte]; exact hu) k
    simp only [List.map_append, List.map_singleton, List.append_assoc, List.singleton_append, List.length_append,
      List.length_singleton]
    by_cases hfull : m.length % 64 = 63
    · obtain ⟨v, hbusy, hv⟩ := ht.takeEdge.byte_full hfull hu
      refine ⟨v, hv, fun k => ?_⟩
      have hcount : m.length + 1 + 66 * ((m.length + 1) / 64) + k =
          m.length + 66 * (m.length / 64) + (66 + k + 1) := by omega
      rw [hcount, hrun, hbyte, hostRun_busyRun hbusy hrest (fun _ => byte_clears_digest hu)]
    · refine ⟨u, ht.takeEdge.byte_room hfull hu, fun k => ?_⟩
      have hcount : m.length + 1 + 66 * ((m.length + 1) / 64) + k =
          m.length + 66 * (m.length / 64) + (k + 1) := by omega
      rw [hcount, hrun, hbyte]

/-- The whole call of a prompt host takes T(n) edges and leaves the digest (R240). -/
theorem hostRun_call {s : State} (hs : s.Fresh) (m : Message) {rest : List HostAction} (hrest : Stalls rest) :
    ∃ t, hostRun (callEdges m.length) (m.map sendByte ++ sendFinal :: rest) s = .next t ∧
      t.DG = digestOf Config.lenFieldBits m ∧ t.digestValid = true := by
  obtain ⟨t, ht, hrun⟩ := hostRun_bytes hs.absorbed m (stalls_present (cmdWord 0b11#2 0) rest)
  obtain ⟨u, hu⟩ := exec_answers .final t.takeEdge
  obtain ⟨v, hbusy, hDG, hv, -⟩ := ht.takeEdge.final hu
  have hcount : callEdges m.length =
      m.length + 66 * (m.length / 64) + (finalEdges (m.length % 64) + 1) := by
    unfold callEdges finalEdges
    split <;> omega
  refine ⟨v, ?_, hDG, hv⟩
  rw [hcount, sendFinal, hrun, hostRun_present ht.ready (by rw [decodeCommand_final]; exact hu)]
  exact hostRun_busyRun hbusy hrest (fun _ => final_clears_digest hu) 0

/-- Settles O44: `INIT` leaves a fresh call, whatever was there before. -/
theorem hashLineComputesTheDigest : Obligations.HashLineComputesTheDigest := by
  intro s m _ hp
  obtain ⟨u, hu⟩ := exec_answers .init s.takeEdge
  obtain ⟨t, ht, hDG, hv⟩ := hostRun_call (exec_init_fresh hu) m (stalls_wait [])
  refine ⟨t, ?_, hv, ?_⟩
  · rw [Nat.add_comm, Line.expand, sendInit, List.cons_append,
      hostRun_present hp (by rw [decodeCommand_init]; exact hu)]
    exact ht
  · rw [State.digestHex, State.digest, hDG]
    rfl

end Sys2Proof.Machine

/-! ## 40_commands: the four commands, and calls whose host idles, sends `NOP`s and presents words to a busy core -/

namespace Sys2Proof.Machine

/-! ### Edges at which no command but `NOP` is accepted (40_commands R101) -/

/-- The second state is the first with other pins to come. -/
theorem State.sameRegisters.exists_eq {s t : State} (h : t.sameRegisters s) : ∃ ps, t = { s with inputs := ps } :=
  ⟨t.inputs, congrArg (fun u : State => { u with inputs := t.inputs }) h⟩

theorem State.sameRegisters.phase_eq {s t : State} (h : t.sameRegisters s) : t.phase = s.phase := by
  obtain ⟨ps, rfl⟩ := h.exists_eq
  rfl

theorem State.sameRegisters_takeEdge (s : State) : s.takeEdge.sameRegisters s := rfl

/-- Settles O10: the edge samples the pins, and neither `NOP` nor an idle edge does anything else. -/
theorem nopAndIdleChangeNothing : Obligations.NopAndIdleChangeNothing := by
  intro s hp
  refine ⟨exec_nop s, fun p hr hidle => ⟨s.takeEdge, ?_, s.sameRegisters_takeEdge⟩⟩
  cases hv : p.cmdValid with
  | false => exact step_idle hr hp hv
  | true =>
    have hop : p.cmdOp = 0b00#2 := hidle.resolve_left (by simp [hv])
    have hnop : decodeCommand p.word = .nop := by rw [PinSample.word, hop, decodeCommand_nop]
    rw [step_command (s := s.withPins p) hr hp hv, State.pins_withPins, hnop]
    exact exec_nop s.takeEdge

/-! ### `INIT`, `BYTE` and `FINAL` (40_commands R102, R103, R105) -/

/-- Settles O14: the three named updates `INIT` is made of write these registers and no others. -/
theorem initStartsACall : Obligations.InitStartsACall := by
  intro s _
  exact ⟨_, exec_init s, fun i => ⟨rfl, zeroWords_getElem i.val i.isLt⟩,
    rfl, rfl, rfl, rfl, rfl, rfl, rfl, rfl, rfl, rfl, rfl⟩

/-- `BYTE` in one form for both cases, with the next phase (R103). -/
theorem exec_byte_eq (d : Byte) (s : State) :
    exec (.byte d) s = .next ((s.storeByte d).clearDigest.advanceFill.setPhase
      (if s.fill = 63#6 then Phase.load else s.phase)) := by
  by_cases hf : s.fill = 63#6
  · rw [exec_byte_full d hf, if_pos hf]
  · rw [exec_byte_room d hf, if_neg hf]
    rfl

/-- Settles O15: `fill` wraps, and the phase changes, exactly at the 64th byte. -/
theorem byteIsAppended : Obligations.ByteIsAppended := by
  intro s d hp
  have hfull : s.fill = 63#6 ↔ s.fill.toNat = 63 := BitVec.toNat_inj.symm
  refine ⟨_, exec_byte_eq d s, fun i => s.storeByte_getElem d i.val i.isLt, s.lenNext_toNat,
    fun i => zeroWords_getElem i.val i.isLt, rfl, fun h => ⟨?_, if_pos (hfull.mpr h)⟩,
    fun h => ⟨?_, (if_neg (hfull.not.mpr h)).trans hp⟩, rfl, rfl, rfl, rfl, rfl, rfl, rfl⟩
  · exact congrArg (fun f : BitVec 6 => (f + 1).toNat) (hfull.mpr h)
  · change (s.fill + 1).toNat = s.fill.toNat + 1
    bv_omega

/-- Settles O16: `FINAL` writes `fin`, the digest register and the phase. -/
theorem finalClosesTheMessage : Obligations.FinalClosesTheMessage := by
  intro s _
  exact ⟨_, exec_final s, rfl, fun i => zeroWords_getElem i.val i.isLt,
    rfl, rfl, rfl, rfl, rfl, rfl, rfl, rfl, rfl, rfl, rfl⟩

/-! ### What is accepted at an edge (40_commands R100, R107) -/

section Edge

variable {s t : State}

theorem exec_inputs {i : Instr} (ht : exec i s = .next t) : t.inputs = s.inputs := by
  obtain ⟨-, -, -, -, -, -, -, -, -, -, -, h⟩ := eachRegisterHasItsWriters i s t ht
  exact h

/-- Every step takes one sample off the pins to come. -/
theorem step_inputs (ht : step s = .next t) : t.inputs = s.inputs.tail := by
  obtain ⟨-, rfl⟩ | ⟨-, rfl⟩ | ⟨i, -, -, hi⟩ := step_cases_select ht
  · rfl
  · rfl
  · exact exec_inputs hi

theorem accepts_of_busy (hp : s.phase ≠ Phase.absorb) : s.accepts = none := if_neg fun ⟨_, _, h⟩ => hp h

theorem accepts_of_idle (hv : s.pins.cmdValid = false) : s.accepts = none :=
  if_neg fun ⟨_, h, _⟩ => by simp [hv] at h

theorem accepts_of_command (hr : s.pins.rst = false) (hp : s.phase = Phase.absorb) (hv : s.pins.cmdValid = true) :
    s.accepts = some (decodeCommand s.pins.word) := if_pos ⟨hr, hv, hp⟩

/-- The command that a state accepts is performed at that edge. -/
theorem step_of_accepts {i : Instr} (h : s.accepts = some i) : step s = exec i s.takeEdge := by
  obtain ⟨⟨hr, hv, hp⟩, hi⟩ := Option.ite_none_right_eq_some.mp h
  cases hi
  exact step_command hr hp hv

/-- An edge of a ready core either accepts a command other than `NOP` and performs it, or changes no register. -/
theorem step_ready_cases (hr : s.pins.rst = false) (hp : s.phase = Phase.absorb) (ht : step s = .next t) :
    (s.accepts.filter (fun i => i != .nop) = none ∧ t.sameRegisters s) ∨
    ∃ i, s.accepts.filter (fun i => i != .nop) = some i ∧ exec i s.takeEdge = .next t := by
  cases hv : s.pins.cmdValid with
  | false =>
    rw [step_idle hr hp hv] at ht
    cases ht
    rw [accepts_of_idle hv]
    exact .inl ⟨rfl, s.sameRegisters_takeEdge⟩
  | true =>
    rw [step_command hr hp hv] at ht
    rw [accepts_of_command hr hp hv]
    by_cases hnop : decodeCommand s.pins.word = .nop
    · rw [hnop] at ht ⊢
      cases ht
      exact .inl ⟨rfl, s.sameRegisters_takeEdge⟩
    · exact .inr ⟨_, by simp [hnop], ht⟩

theorem acceptedIn_succ (k : Nat) (ht : step s = .next t) :
    acceptedIn (k + 1) s = (s.accepts.filter (fun i => i != .nop)).toList ++ acceptedIn k t := by
  rw [acceptedIn, ht]

end Edge

/-! ### Busy edges as edges of a run (44_core_sequencer R175) -/

theorem busy_of_decodePhase {p : Phase} {i : Instr} (h : decodePhase p = .ok i) : p ≠ Phase.absorb := by
  rintro rfl
  simp at h

namespace BusyRun

variable {j k : Nat} {s t : State}

theorem busy (h : BusyRun (k + 1) s t) : s.phase ≠ Phase.absorb := by
  cases h with
  | edge hi _ _ => exact busy_of_decodePhase hi

/-- The first `j` edges of a longer stretch, without reset. A core that was busy without a digest has none before it is
ready again. -/
theorem split_run (h : BusyRun (j + k) s t) (hr : s.noReset (j + k))
    (hv : s.phase ≠ Phase.absorb → s.digestValid = false) :
    ∃ u, run j s = .next u ∧ BusyRun k u t ∧ (u.phase ≠ Phase.absorb → u.digestValid = false) := by
  induction j generalizing s with
  | zero => exact ⟨s, rfl, by rwa [Nat.zero_add] at h, hv⟩
  | succ j ih =>
    rw [Nat.add_right_comm] at h hr
    cases h with
    | @edge _ _ w _ i hi hw hwt =>
      have hstep : step s = .next w := (step_operation (State.noReset_head hr) hi).trans hw
      obtain ⟨u, hu, hut, hvu⟩ := ih hwt (State.noReset_tail hr (exec_inputs hw))
        (digestValid_of_busy_edge hi hw (hv (busy_of_decodePhase hi)))
      exact ⟨u, (run_succ j hstep).trans hu, hut, hvu⟩

end BusyRun

/-- After `FINAL` a core whose marker is not written is busy for 68 or 135 edges, whatever its other registers hold, and
then holds a digest in a fresh call (R106). -/
theorem busyRun_final {s t : State} (hmark : s.mark = false) (ht : exec .final s = .next t) :
    ∃ u, BusyRun (finalEdges s.fill.toNat) t u ∧ u.digestValid = true ∧ u.Fresh := by
  cases ht
  obtain ⟨u, hrun, -, hphase, hfin, hmark', -⟩ :=
    busyRun_pad (s := s.closeMessage.clearDigest.setPhase Phase.pad) rfl rfl (exec_pad_first hmark)
  have hfits : s.lengthFits = true ↔ s.fill.toNat ≤ 55 := decide_eq_true_iff
  by_cases hle : s.fill.toNat ≤ 55
  · obtain ⟨v, hrun', -, hv, hfresh⟩ := busyRun_finish (hphase.trans (if_pos (hfits.mpr hle)))
    rw [finalEdges, if_pos hle]
    exact ⟨v, hrun.trans hrun', hv, hfresh⟩
  · have hpad : u.phase = Phase.pad := hphase.trans (if_neg (hfits.not.mpr hle))
    obtain ⟨v, hrun', -, hphase', -⟩ := busyRun_pad hpad hfin (exec_pad_second hmark')
    obtain ⟨x, hrun'', -, hx, hfresh⟩ := busyRun_finish hphase'
    rw [finalEdges, if_neg hle]
    exact ⟨x, (hrun.trans hrun').trans hrun'', hx, hfresh⟩

/-- Settles O40: the edge that accepts `FINAL`, then the busy edges up to the fresh call. -/
theorem finalRunsToAFreshCall : Obligations.FinalRunsToAFreshCall := by
  intro s ha hmark _ hr
  obtain ⟨t, ht⟩ := exec_answers .final s.takeEdge
  have hst : step s = .next t := (step_of_accepts ha).trans ht
  have hv : t.phase ≠ Phase.absorb → t.digestValid = false := fun _ => final_clears_digest ht
  obtain ⟨v, hbusy, hvalid, hfresh⟩ := busyRun_final (s := s.takeEdge) hmark ht
  rw [State.takeEdge_fill] at hbusy
  generalize finalEdges s.fill.toNat = n at hbusy hr ⊢
  rw [Nat.add_comm] at hr ⊢
  have hrt : t.noReset n := State.noReset_tail hr (exec_inputs ht)
  refine ⟨fun k hk hkn => ?_, v, ?_, ?_, hvalid, hfresh⟩
  · obtain ⟨j, rfl⟩ := Nat.exists_eq_add_of_le' hk
    obtain ⟨l, rfl⟩ := Nat.exists_eq_add_of_lt hkn
    obtain ⟨u, hu, huv, hvu⟩ := BusyRun.split_run (k := l + 1) hbusy hrt hv
    exact ⟨u, (run_succ j hst).trans hu, beq_false_of_ne huv.busy, hvu huv.busy⟩
  · obtain ⟨u, hu, huv, -⟩ := BusyRun.split_run (k := 0) hbusy hrt hv
    cases huv
    exact (run_succ n hst).trans hu
  · rw [State.cmdReady, hfresh.phase_absorb]
    rfl

/-! ### Runs that end in a ready core (40_commands R104, R107) -/

/-- `k` edges without reset lead from `s` to the ready core `t`, and the commands accepted on the way, less `NOP`s, are
`l`. -/
structure ReadyRun (k : Nat) (s t : State) (l : List Instr) : Prop where
  noReset : s.noReset k
  run_eq : run k s = .next t
  accepted : acceptedIn k s = l
  ready : t.phase = Phase.absorb

namespace ReadyRun

variable {j k : Nat} {s t u : State} {l : List Instr}

/-- The first edge of a run. -/
theorem exists_step (h : ReadyRun (k + 1) s t l) :
    ∃ u l', step s = .next u ∧ l = (s.accepts.filter (fun i => i != .nop)).toList ++ l' ∧ ReadyRun k u t l' := by
  obtain ⟨u, hu, hrun⟩ := exists_step_of_run h.run_eq
  exact ⟨u, acceptedIn k u, hu, h.accepted.symm.trans (acceptedIn_succ k hu),
    ⟨State.noReset_tail h.noReset (step_inputs hu), hrun, rfl, h.ready⟩⟩

/-- A run that starts in a busy core includes all its busy edges, and nothing is accepted at them. -/
theorem of_busyRun (hsu : BusyRun j s u) (h : ReadyRun k s t l) : ∃ k', ReadyRun k' u t l := by
  induction hsu generalizing k with
  | refl s => exact ⟨k, h⟩
  | @edge j s v u i hi hv _ ih =>
    have hbusy := busy_of_decodePhase hi
    cases k with
    | zero =>
      cases h.run_eq
      exact absurd h.ready hbusy
    | succ k =>
      obtain ⟨w, l', hw, hl, hrun⟩ := h.exists_step
      rw [step_operation (State.noReset_head h.noReset) hi, hv] at hw
      cases hw
      rw [accepts_of_busy hbusy] at hl
      obtain rfl : l = l' := hl
      exact ih hrun

/-- A run of a ready core up to the first command other than `NOP`: no register changes before it is accepted. -/
theorem first_command {i : Instr} (hs : s.phase = Phase.absorb) (h : ReadyRun k s t (i :: l)) :
    ∃ k' v u, v.sameRegisters s ∧ exec i v = .next u ∧ ReadyRun k' u t l := by
  induction k generalizing s with
  | zero => cases h.accepted
  | succ k ih =>
    obtain ⟨w, l', hw, hl, hrun⟩ := h.exists_step
    obtain ⟨hnone, hsame⟩ | ⟨i', hsome, hexec⟩ := step_ready_cases (State.noReset_head h.noReset) hs hw
    · rw [hnone] at hl
      obtain rfl : i :: l = l' := hl
      obtain ⟨k', v, u, hv, hu⟩ := ih (hsame.phase_eq.trans hs) hrun
      exact ⟨k', v, u, hv.trans hsame, hu⟩
    · rw [hsome] at hl
      cases hl
      exact ⟨k, s.takeEdge, w, s.sameRegisters_takeEdge, hexec, hrun⟩

/-- A ready core that accepts nothing but `NOP`s changes no register (R101). -/
theorem sameRegisters_of_nil (hs : s.phase = Phase.absorb) (h : ReadyRun k s t []) : t.sameRegisters s := by
  induction k generalizing s with
  | zero =>
    cases h.run_eq
    exact rfl
  | succ k ih =>
    obtain ⟨w, l', hw, hl, hrun⟩ := h.exists_step
    obtain ⟨hnone, hsame⟩ | ⟨i', hsome, -⟩ := step_ready_cases (State.noReset_head h.noReset) hs hw
    · rw [hnone] at hl
      obtain rfl : [] = l' := hl
      exact (ih (hsame.phase_eq.trans hs) hrun).trans hsame
    · rw [hsome] at hl
      cases hl

end ReadyRun

/-! ### The bytes of a call, and its `FINAL` -/

theorem State.Absorbed.of_sameRegisters {s t : State} {m : Message} (h : s.Absorbed m) (ht : t.sameRegisters s) :
    t.Absorbed m := by
  obtain ⟨ps, rfl⟩ := ht.exists_eq
  exact { h with }

/-- A byte given to a core that holds a message: when the core is ready again it holds the message and the byte. -/
theorem State.Absorbed.byte {s t : State} {m : Message} {d : Byte} (h : s.Absorbed m)
    (ht : exec (.byte d) s = .next t) : ∃ j u, BusyRun j t u ∧ u.Absorbed (m ++ [d]) := by
  by_cases hfull : m.length % 64 = 63
  · exact ⟨66, h.byte_full hfull ht⟩
  · exact ⟨0, t, .refl t, h.byte_room hfull ht⟩

/-- A run whose accepted commands begin with the bytes of `m` comes to a ready core that has absorbed them. -/
theorem ReadyRun.absorb_bytes {k : Nat} {s t : State} {p m : Message} {l : List Instr} (hs : s.Absorbed p)
    (h : ReadyRun k s t (m.map Instr.byte ++ l)) : ∃ k' u, u.Absorbed (p ++ m) ∧ ReadyRun k' u t l := by
  induction m generalizing k s p with
  | nil => exact ⟨k, s, by rwa [List.append_nil], h⟩
  | cons d m ih =>
    obtain ⟨_, v, u, hv, hu, hrun⟩ := h.first_command hs.ready
    obtain ⟨_, w, huw, hw⟩ := (hs.of_sameRegisters hv).byte hu
    obtain ⟨_, hrun'⟩ := hrun.of_busyRun huw
    rw [List.append_cons]
    exact ih hw hrun'

/-- Settles O41: after the last byte the core idles or accepts `NOP`s. -/
theorem bytesOfACallAreAbsorbed : Obligations.BytesOfACallAreAbsorbed := by
  intro s t k m hs hr hrun hacc hready
  have h : ReadyRun k s t (m.map Instr.byte ++ []) := ⟨hr, hrun, by rw [hacc, List.append_nil], hready⟩
  obtain ⟨k', u, hu, hut⟩ := h.absorb_bytes hs.absorbed
  have ht := hu.of_sameRegisters (hut.sameRegisters_of_nil hu.ready)
  exact ⟨ht.fill, ht.len, fun i => ht.bytes i.val i.isLt, ht.hash⟩

/-- Settles O42: the bytes are absorbed, `FINAL` runs to the digest, and after it the core idles or accepts `NOP`s. -/
theorem callDeliversItsDigest : Obligations.CallDeliversItsDigest := by
  intro s t k m hs hr hrun hacc hready
  have h : ReadyRun k s t (m.map Instr.byte ++ [.final]) := ⟨hr, hrun, hacc, hready⟩
  obtain ⟨_, u, hu, hut⟩ := h.absorb_bytes hs.absorbed
  obtain ⟨_, v, w, hv, hw, hwt⟩ := hut.first_command hu.ready
  obtain ⟨x, hwx, hDG, hvalid, hfresh⟩ := (hu.of_sameRegisters hv).final hw
  obtain ⟨_, hxt⟩ := hwt.of_busyRun hwx
  obtain ⟨ps, rfl⟩ := (hxt.sameRegisters_of_nil hfresh.phase_absorb).exists_eq
  refine ⟨hDG, hvalid, ?_, { hfresh with }⟩
  rw [State.digestHex, State.digest, hDG]
  rfl

end Sys2Proof.Machine

/-! ## 41_padder: the operation `PAD`, and the layout of the padded message -/

namespace Sys2Proof.Machine

/-! ### The two visits (41_padder R123) -/

/-- An entry of the length field under the index that the obligations write. -/
theorem getElem_finOfNat (v : Vector Byte 8) {j : Nat} (h : j < 8) : v[Fin.ofNat 8 j] = v[j] := by
  simp only [Fin.getElem_fin, Fin.val_ofNat, Nat.mod_eq_of_lt h]

theorem firstPadBlock_get (b : Block) (fill : BitVec 6) (lf : Vector Byte 8) (i : Fin 64) :
    (firstPadBlock b fill lf)[i] =
      if i.val < fill.toNat then b[i]
      else if i.val = fill.toNat then 0x80#8
      else if 56 ≤ i.val ∧ fill.toNat ≤ 55 then lf[Fin.ofNat 8 (i.val - 56)]
      else 0x00#8 := by
  rw [Fin.getElem_fin, firstPadBlock_getElem]
  by_cases htail : 56 ≤ i.val ∧ fill.toNat ≤ 55
  · rw [dif_pos htail, if_pos htail, getElem_finOfNat lf (by omega)]
    rfl
  · rw [dif_neg htail, if_neg htail]
    rfl

theorem secondPadBlock_get (lf : Vector Byte 8) (i : Fin 64) :
    (secondPadBlock lf)[i] = if i.val ≤ 55 then 0x00#8 else lf[Fin.ofNat 8 (i.val - 56)] := by
  rw [Fin.getElem_fin, secondPadBlock_getElem]
  by_cases hzero : i.val ≤ 55
  · rw [dif_neg (by omega), if_pos hzero]
  · rw [dif_pos (by omega), if_neg hzero, getElem_finOfNat lf (by omega)]

theorem State.lengthFits_iff (s : State) : s.lengthFits = true ↔ s.fill.toNat ≤ 55 := decide_eq_true_iff

/-- Settles O17, a visit at a time: `PAD` writes the block, `mark`, `last` and the phase, and nothing else. -/
theorem padWritesThePadding : Obligations.PadWritesThePadding := by
  intro s _
  cases hmark : s.mark with
  | false =>
    exact ⟨_, exec_pad_first hmark, rfl, rfl, fun _ => ⟨firstPadBlock_get s.blk s.fill s.lengthField, s.lengthFits_iff⟩,
      nofun, by simp⟩
  | true =>
    exact ⟨_, exec_pad_second hmark, rfl, rfl, nofun, fun _ => ⟨secondPadBlock_get s.lengthField, rfl⟩,
      by simp⟩

/-! ### The layout of the padded message (41_padder R121, R124, R125) -/

/-- N(n) as the ceiling of `(n + 9) / 64` (R124). -/
theorem blockCount_eq_ceil (n : Nat) : blockCount n = (n + 9 + 63) / 64 := by
  by_cases hfits : n % 64 ≤ 55
  · rw [blockCount_of_fits hfits]
    omega
  · rw [blockCount_of_not_fits hfits]
    omega

/-- A byte within the padded message, read with or without a default. -/
theorem pad_getElem? {b : LenFieldBits} {m : Message} {i : Nat} (h : i < (pad b m).length) :
    (pad b m)[i]? = some ((pad b m).getD i 0) := by
  rw [List.getElem?_eq_getElem h, List.getD_eq_getElem _ _ h]

/-- The message is not changed by its padding. -/
theorem pad_take_message (b : LenFieldBits) (m : Message) : (pad b m).take m.length = m := by
  rw [pad, List.append_assoc]
  exact List.take_left

/-- The last eight bytes are the length field (R125). -/
theorem pad_drop_lengthBytes (b : LenFieldBits) (m : Message) :
    (pad b m).drop ((pad b m).length - 8) = lengthBytes b m.length := by
  rw [pad, List.length_append, lengthBytes_length, Nat.add_sub_cancel]
  exact List.drop_left

/-- Settles O46: the zeros run from the marker up to the eight bytes that end block N(n). -/
theorem paddedMessageLayout : Obligations.PaddedMessageLayout := by
  intro b m
  have hlen := pad_length b m
  have hend := padZeros_end m.length
  refine ⟨hlen, by rw [hlen, blockCount_eq_ceil], pad_take_message b m, ?_, fun i hi hlast => ?_,
    pad_drop_lengthBytes b m⟩
  · rw [pad_getElem? (by omega), pad_getD_marker]
  · rw [pad_getElem? (by omega), pad_getD_zero b m hi (by omega)]

/-! ### `PAD` against the padded message (41_padder R126, R129) -/

/-- The message ends in the final block exactly when the length field still fits behind it (R124). -/
theorem blockCount_eq_succ_iff (n : Nat) : blockCount n = n / 64 + 1 ↔ n % 64 ≤ 55 := by
  refine ⟨fun h => ?_, blockCount_of_fits⟩
  by_contra hfits
  rw [blockCount_of_not_fits hfits] at h
  omega

/-- Settles O45: `PAD` sees in `len` the length field of `Pad(M)` at both visits, and the second follows where the field
did not fit in the first block. -/
theorem padderWritesThePaddedMessage : Obligations.PadderWritesThePaddedMessage := by
  intro s m _ hmark hfill hlen hblk
  have hlast : s.lengthFits = true ↔ m.length % 64 ≤ 55 := by rw [State.lengthFits_iff, hfill]
  refine ⟨_, exec_pad_first hmark,
    firstPadBlock_eq_blockAt hfill (State.lengthField_toList hlen) fun j hj => hblk ⟨j, hj⟩,
    hlast.trans (blockCount_eq_succ_iff m.length).symm, fun u hopen humark hulen => ?_⟩
  have hfits : ¬m.length % 64 ≤ 55 := hlast.not.mp (Bool.eq_false_iff.mp hopen)
  have hfield : u.lengthField.toList = lengthBytes Config.lenFieldBits m.length :=
    State.lengthField_toList (by rw [hulen, State.setPhase_len, State.writeBlock_len, hlen])
  exact ⟨_, exec_pad_second humark, secondPadBlock_eq_blockAt hfits hfield, rfl⟩

end Sys2Proof.Machine

/-! ## 42_msg_schedule: the schedule word, what `ROUND` registers, and the wires to the round module -/

namespace Sys2Proof.Machine

/-! ### The small sigma functions (42_msg_schedule R141) -/

theorem smallSigma0_eq_rotateRight (x : Word) :
    smallSigma0 x = x.rotateRight 7 ^^^ x.rotateRight 18 ^^^ (x >>> 3) := by
  rw [smallSigma0, xor3, rotr32_eq_rotateRight x (by decide), rotr32_eq_rotateRight x (by decide), shr32]

theorem smallSigma1_eq_rotateRight (x : Word) :
    smallSigma1 x = x.rotateRight 17 ^^^ x.rotateRight 19 ^^^ (x >>> 10) := by
  rw [smallSigma1, xor3, rotr32_eq_rotateRight x (by decide), rotr32_eq_rotateRight x (by decide), shr32]

/-- Settles O25: every rotation amount is below 32, where `rotr32` is the library's rotation. -/
theorem smallSigmaFunctions : Obligations.SmallSigmaFunctions := fun x =>
  ⟨smallSigma0_eq_rotateRight x, smallSigma1_eq_rotateRight x⟩

/-! ### The schedule word (42_msg_schedule R142, R143) -/

theorem schedWord_block (b : Block) (w : Words64) {j : Fin 64} (h : j.val < 16) :
    schedWord j b w = blockWord b ⟨j.val, h⟩ := dif_pos h

theorem schedWord_expand (b : Block) (w : Words64) {j : Fin 64} (h : 16 ≤ j.val) :
    schedWord j b w = expandWord w[j.val - 16] w[j.val - 15] w[j.val - 7] w[j.val - 2] := dif_neg h.not_gt

/-- The four terms are added modulo 2^32. -/
theorem expandWord_toNat (w16 w15 w7 w2 : Word) :
    (expandWord w16 w15 w7 w2).toNat =
      (w16.toNat + (smallSigma0 w15).toNat + w7.toNat + (smallSigma1 w2).toNat) % 2 ^ 32 := by
  rw [expandWord, add32_toNat, add32_toNat, add32_toNat]
  omega

/-! ### What `ROUND` registers (44_core_sequencer R177) -/

section Round

variable {s t : State}

/-- The word at `rnd` is the schedule word computed before the edge (R143). -/
theorem exec_round_W_roundIndex (ht : exec .round s = .next t) : t.W[s.roundIndex] = s.roundWord := by
  cases ht
  exact Vector.getElem_set_self s.rnd.isLt

/-- Every other word of the schedule is kept (R143). -/
theorem exec_round_W_of_ne (ht : exec .round s = .next t) {i : Fin 64} (hi : i ≠ s.roundIndex) : t.W[i] = s.W[i] := by
  have hne : s.rnd.toNat ≠ i.val := fun h => hi (Fin.ext h.symm)
  cases ht
  exact Vector.getElem_set_ne s.rnd.isLt i.isLt hne

theorem exec_round_V (ht : exec .round s = .next t) : t.V = roundFn s.V K[s.roundIndex] s.roundWord := by
  cases ht
  rfl

end Round

/-- Settles O23: the two branches of the schedule word, and the word that `ROUND` stores. -/
theorem scheduleWordOfRound : Obligations.ScheduleWordOfRound := by
  intro b w
  refine ⟨fun j => ?_, fun j hj => ?_, fun s t ht => exec_round_W_roundIndex ht⟩
  · have hidx : (Fin.ofNat 64 j.val).val = j.val := Nat.mod_eq_of_lt (by omega)
    have hblock : (Fin.ofNat 64 j.val).val < 16 := hidx.trans_lt j.isLt
    have hj : (⟨(Fin.ofNat 64 j.val).val, hblock⟩ : Fin 16) = j := Fin.ext hidx
    rw [schedWord_block b w hblock, hj]
    rfl
  · rw [schedWord_expand b w hj, expandWord_toNat]

/-! ### One round against the pure functions (42_msg_schedule R144, 44_core_sequencer R182) -/

/-- The word of the coming round is that of `Sched(blk)` once the earlier ones are. -/
theorem State.roundWord_eq_sched {s : State} (hW : ∀ i : Fin 64, i.val < s.rnd.toNat → s.W[i] = (sched s.blk)[i]) :
    s.roundWord = (sched s.blk)[s.roundIndex] :=
  schedWord_of_earlier fun i hi hlt => hW ⟨i, hi⟩ hlt

/-- The index with which `Rounds64` reads `K` and the schedule is the round index of `ROUND`. -/
theorem State.ofNat_rnd_eq_roundIndex (s : State) : Fin.ofNat 64 s.rnd.toNat = s.roundIndex :=
  Fin.ext (Nat.mod_eq_of_lt s.rnd.isLt)

/-- The round of `Rounds64` after `rnd` rounds reads its constant and its word at the round index. -/
theorem State.roundsUpTo_rnd_succ (s : State) (v : Words8) (w : Words64) :
    roundsUpTo v w (s.rnd.toNat + 1) =
      roundFn (roundsUpTo v w s.rnd.toNat) K[s.roundIndex] w[s.roundIndex] := by
  simp only [roundsUpTo_succ, s.ofNat_rnd_eq_roundIndex]

/-- Settles O38: `ROUND` computes the next word of the schedule, stores it behind the earlier ones and applies with it
the next of the 64 rounds. -/
theorem roundFollowsTheReference : Obligations.RoundFollowsTheReference := by
  intro s v0 _ hV hW
  have hword := State.roundWord_eq_sched hW
  have ht := exec_round s
  refine ⟨_, ht, ?_, fun i hi => ?_, rfl⟩
  · rw [exec_round_V ht, s.roundsUpTo_rnd_succ, ← hV, ← hword]
  · by_cases hround : i = s.roundIndex
    · rw [hround, exec_round_W_roundIndex ht, hword]
    · have hearlier : i.val < s.rnd.toNat := hi.lt_of_ne fun h => hround (Fin.ext h)
      rw [exec_round_W_of_ne ht hround, hW i hearlier]

/-! ### The wires between the modules (42_msg_schedule R148, 43_compression_round R155, 44_core_sequencer R181) -/

/-- The 256-bit bus loses nothing of the eight words. -/
theorem bitsToWords_wordsToBits (v : Words8) : bitsToWords (wordsToBits v) = v := by
  ext i hi
  rw [bitsToWords, Vector.getElem_ofFn, wordsToBits_extractLsb' v ⟨i, hi⟩, Fin.getElem_fin]

/-- Settles O54: the round module unpacks `v_in` to `V`, so it computes the `V` that `ROUND` registers. -/
theorem roundModuleWires : Obligations.RoundModuleWires := by
  intro s t ht
  have hin : bitsToWords s.roundWires.vIn = s.V := bitsToWords_wordsToBits s.V
  have hout : s.roundWires.vOut = wordsToBits t.V := by
    rw [exec_round_V ht, State.roundWires, bitsToWords_wordsToBits]
  exact ⟨hout, rfl, exec_round_W_roundIndex ht, hin⟩

end Sys2Proof.Machine

/-! ## 43_compression_round: the functions of a round, and the round itself -/

namespace Sys2Proof.Machine

/-! ### Choose and majority, bit by bit (43_compression_round R157) -/

/-- The bit of `e` selects: it masks away one of the two terms. -/
theorem choose_getLsbD (e f g : Word) {i : Nat} (hi : i < 32) :
    (choose e f g).getLsbD i = if e.getLsbD i then f.getLsbD i else g.getLsbD i := by
  rw [choose, BitVec.getLsbD_xor, BitVec.getLsbD_and, BitVec.getLsbD_and, BitVec.getLsbD_not, decide_eq_true hi]
  cases e.getLsbD i with
  | false => simp
  | true => simp

theorem majority_getLsbD (a b c : Word) (i : Nat) :
    (majority a b c).getLsbD i =
      ((a.getLsbD i && b.getLsbD i) ^^ (a.getLsbD i && c.getLsbD i) ^^ (b.getLsbD i && c.getLsbD i)) := by
  rw [majority, xor3_getLsbD, BitVec.getLsbD_and, BitVec.getLsbD_and, BitVec.getLsbD_and]

/-- Of three bits one, or all three, of the pairs are both 1 exactly when at least two bits are 1. -/
theorem xor_pairs_iff_two_le (p q r : Bool) :
    ((p && q) ^^ (p && r) ^^ (q && r)) = true ↔ 2 ≤ p.toNat + q.toNat + r.toNat := by
  revert p q r
  decide

/-- Settles O28: `Ch` selects by the bit of its first operand, and `Maj` is the parity of the pairs of 1 bits. -/
theorem chooseAndMajorityBitwise : Obligations.ChooseAndMajorityBitwise := by
  intro x y z i hi
  refine ⟨choose_getLsbD x y z hi, ?_⟩
  rw [majority_getLsbD, xor_pairs_iff_two_le]

/-! ### The big sigma functions (43_compression_round R156) -/

theorem bigSigma0_eq_rotateRight (x : Word) :
    bigSigma0 x = x.rotateRight 2 ^^^ x.rotateRight 13 ^^^ x.rotateRight 22 := by
  rw [bigSigma0, xor3, rotr32_eq_rotateRight x (by decide), rotr32_eq_rotateRight x (by decide),
    rotr32_eq_rotateRight x (by decide)]

theorem bigSigma1_eq_rotateRight (x : Word) :
    bigSigma1 x = x.rotateRight 6 ^^^ x.rotateRight 11 ^^^ x.rotateRight 25 := by
  rw [bigSigma1, xor3, rotr32_eq_rotateRight x (by decide), rotr32_eq_rotateRight x (by decide),
    rotr32_eq_rotateRight x (by decide)]

/-- Settles O26: every rotation amount is below 32, where `rotr32` is the library's rotation. -/
theorem bigSigmaFunctions : Obligations.BigSigmaFunctions := fun x =>
  ⟨bigSigma0_eq_rotateRight x, bigSigma1_eq_rotateRight x⟩

/-! ### The round (43_compression_round R158) -/

section RoundFormula

variable (a b c d e f g h k w : Word)

theorem temp1_eq_add :
    temp1 #v[a, b, c, d, e, f, g, h] k w = h + bigSigma1 e + choose e f g + k + w := rfl

theorem temp2_eq_add : temp2 #v[a, b, c, d, e, f, g, h] = bigSigma0 a + majority a b c := rfl

/-- Six of the eight outputs are inputs moved one place on; only the first and the fifth are sums. -/
theorem roundFn_eq_temps :
    roundFn #v[a, b, c, d, e, f, g, h] k w =
      #v[temp1 #v[a, b, c, d, e, f, g, h] k w + temp2 #v[a, b, c, d, e, f, g, h], a, b, c,
        d + temp1 #v[a, b, c, d, e, f, g, h] k w, e, f, g] := rfl

end RoundFormula

/-- Settles O24: the two temporaries are the sums of R158, and `add32` is the sum of words. -/
theorem roundFunctionFormula : Obligations.RoundFunctionFormula := by
  intro a b c d e f g h k w
  rw [roundFn_eq_temps, temp1_eq_add, temp2_eq_add]

end Sys2Proof.Machine

/-! ## 44_core_sequencer: the internal operations, the transitions of `phase`, and how long the core is busy -/

namespace Sys2Proof.Machine

/-! ### `LOAD`, `ROUND`, `UPDATE` and `FINISH` (44_core_sequencer R176, R177, R178, R180) -/

/-- Settles O18: the three named updates `LOAD` is made of write `V`, `rnd` and the phase. -/
theorem loadCopiesTheHash : Obligations.LoadCopiesTheHash := by
  intro s _
  exact ⟨_, exec_load s, fun _ => rfl, rfl, rfl, rfl, rfl, rfl, rfl, rfl, rfl, rfl, rfl, rfl, rfl⟩

theorem State.phaseAfterRound_eq (s : State) :
    s.phaseAfterRound = if s.rnd.toNat = 63 then Phase.update else Phase.round := by
  have hlast : s.rnd = 63#6 ↔ s.rnd.toNat = 63 := BitVec.toNat_inj.symm
  simp only [State.phaseAfterRound, hlast]

/-- Settles O19: the round index is `rnd`, whose addition wraps modulo 64. -/
theorem roundPerformsOneRound : Obligations.RoundPerformsOneRound := by
  intro s j _ hj
  obtain rfl : s.roundIndex = j := Fin.ext hj
  have ht := exec_round s
  refine ⟨_, ht, fun i => ?_, exec_round_V ht, BitVec.toNat_add s.rnd 1, s.phaseAfterRound_eq,
    rfl, rfl, rfl, rfl, rfl, rfl, rfl, rfl, rfl⟩
  by_cases hi : i = s.roundIndex
  · rw [if_pos hi, hi]
    exact exec_round_W_roundIndex ht
  · rw [if_neg hi]
    exact exec_round_W_of_ne ht hi

/-- Settles O20: eight sums, and the next phase by `fin` and `last`. -/
theorem updateFoldsTheWorkingVariables : Obligations.UpdateFoldsTheWorkingVariables := by
  intro s _
  refine ⟨_, exec_update s, fun i => ?_, s.phaseAfterUpdate_eq_absorb.mpr,
    fun hfin hlast => s.phaseAfterUpdate_eq_pad.mpr ⟨hfin, hlast⟩,
    fun hfin hlast => s.phaseAfterUpdate_eq_finish.mpr ⟨hfin, hlast⟩,
    rfl, rfl, rfl, rfl, rfl, rfl, rfl, rfl, rfl, rfl, rfl⟩
  have hsum : (addWords s.H s.V)[i] = add32 s.H[i] s.V[i] := addWords_getElem s.H s.V i.val i.isLt
  exact (congrArg BitVec.toNat hsum).trans (add32_toNat _ _)

/-- Settles O21: `publish` reads `H` before `startCall` writes it. -/
theorem finishPublishesTheDigest : Obligations.FinishPublishesTheDigest := by
  intro s _
  exact ⟨_, exec_finish s, fun _ => ⟨rfl, rfl⟩, rfl, rfl, rfl, rfl, rfl, rfl, rfl, rfl, rfl, rfl, rfl⟩

/-! ### The transitions of `phase` (44_core_sequencer R175) -/

/-- The phase that an operation performed in `s` leaves: the table of R175. -/
def State.phaseAfter (s : State) : Instr → Phase
  | .nop => s.phase
  | .init => Phase.absorb
  | .byte _ => if s.fill.toNat = 63 then Phase.load else s.phase
  | .final => Phase.pad
  | .pad => Phase.load
  | .load => Phase.round
  | .round => s.phaseAfterRound
  | .update => s.phaseAfterUpdate
  | .finish => Phase.absorb

section Transitions

variable {s t : State} {i : Instr}

theorem exec_phase (ht : exec i s = .next t) : t.phase = s.phaseAfter i := by
  cases i with
  | byte d =>
    have hfull : s.fill = 63#6 ↔ s.fill.toNat = 63 := BitVec.toNat_inj.symm
    rw [exec_byte_eq] at ht
    cases ht
    simp only [State.setPhase_phase, State.phaseAfter, hfull]
  | pad =>
    obtain ⟨b, l, rfl⟩ := exec_pad_next ht
    rfl
  | nop => cases ht; rfl
  | init => cases ht; rfl
  | final => cases ht; rfl
  | load => cases ht; rfl
  | round => cases ht; rfl
  | update => cases ht; rfl
  | finish => cases ht; rfl

/-- An operation performed in its own phase leaves none of the reserved codes (R86). -/
theorem State.phaseAfter_legal (hp : s.phase = i.phaseOf) : s.phaseAfter i ≠ 6#3 ∧ s.phaseAfter i ≠ 7#3 := by
  cases i with
  | nop => simp [State.phaseAfter, hp, Instr.phaseOf]
  | byte d => simp only [State.phaseAfter, hp, Instr.phaseOf]; split_ifs <;> simp
  | round => obtain ⟨h, -⟩ | ⟨h, -⟩ := s.phaseAfterRound_cases <;> simp [State.phaseAfter, h]
  | update => obtain h | h | h := s.phaseAfterUpdate_cases <;> simp [State.phaseAfter, h]
  | init => simp [State.phaseAfter]
  | final => simp [State.phaseAfter]
  | pad => simp [State.phaseAfter]
  | load => simp [State.phaseAfter]
  | finish => simp [State.phaseAfter]

theorem step_phase_legal (ht : step s = .next t) : t.phase ≠ 6#3 ∧ t.phase ≠ 7#3 := by
  obtain ⟨-, rfl⟩ | ⟨-, hp, -, rfl⟩ | ⟨-, hp, -, hi⟩ | ⟨-, -, i, hdecode, hi⟩ := step_cases ht
  · simp
  · simp [hp]
  · rw [exec_phase hi]
    exact State.phaseAfter_legal (hp.trans (phaseOf_decodeCommand _).symm)
  · rw [exec_phase hi]
    exact State.phaseAfter_legal (phaseOf_decodePhase hdecode).symm

theorem step_phase_of_accepts (ha : s.accepts = some i) (ht : step s = .next t) : t.phase = s.phaseAfter i :=
  exec_phase (s := s.takeEdge) ((step_of_accepts ha).symm.trans ht)

theorem step_phase_of_operation (hr : s.pins.rst = false) (hp : s.phase = i.phaseOf)
    (hi : decodePhase i.phaseOf = .ok i) (ht : step s = .next t) : t.phase = s.phaseAfter i :=
  exec_phase (s := s.takeEdge) ((step_operation hr (hp ▸ hi)).symm.trans ht)

/-- An edge of a ready core at which nothing or `NOP` is accepted changes no register (40_commands R101). -/
theorem step_sameRegisters (hr : s.pins.rst = false) (hp : s.phase = Phase.absorb)
    (ha : s.accepts = none ∨ s.accepts = some .nop) (ht : step s = .next t) : t.sameRegisters s := by
  have hnone : s.accepts.filter (fun i => i != .nop) = none := by
    obtain ha | ha := ha
    · rw [ha]; rfl
    · rw [ha]; rfl
  obtain ⟨-, hsame⟩ | ⟨i, hi, -⟩ := step_ready_cases hr hp ht
  · exact hsame
  · rw [hnone] at hi
    cases hi

end Transitions

/-- Settles O31: each row of the table is the phase its operation leaves. -/
theorem phaseTransitions : Obligations.PhaseTransitions := by
  intro s t ht
  refine ⟨fun hr => ?_, fun hr => ⟨fun hp ha => ?_, fun hp d ha => ?_, fun _ ha => step_phase_of_accepts ha ht,
    fun hp => ?_, fun hp => ?_, fun hp => ?_, fun hp hfin => ?_, fun hp hfin hlast => ?_, fun hp hfin hlast => ?_,
    fun hp => ?_⟩, step_phase_legal ht⟩
  · rw [step_reset hr] at ht
    cases ht
    rfl
  · rw [← or_assoc] at ha
    obtain hidle | hinit := ha
    · exact (step_sameRegisters hr hp hidle ht).phase_eq.trans hp
    · exact step_phase_of_accepts hinit ht
  · rw [step_phase_of_accepts ha ht, State.phaseAfter, hp]
  · exact step_phase_of_operation (i := .pad) hr hp rfl ht
  · exact step_phase_of_operation (i := .load) hr hp rfl ht
  · exact (step_phase_of_operation (i := .round) hr hp rfl ht).trans s.phaseAfterRound_eq
  · rw [step_phase_of_operation (i := .update) hr hp rfl ht]
    exact s.phaseAfterUpdate_eq_absorb.mpr hfin
  · rw [step_phase_of_operation (i := .update) hr hp rfl ht]
    exact s.phaseAfterUpdate_eq_pad.mpr ⟨hfin, hlast⟩
  · rw [step_phase_of_operation (i := .update) hr hp rfl ht]
    exact s.phaseAfterUpdate_eq_finish.mpr ⟨hfin, hlast⟩
  · exact step_phase_of_operation (i := .finish) hr hp rfl ht

/-! ### How long a digest is held (44_core_sequencer R188, 70_reset R237) -/

/-- What is accepted is a host command. -/
theorem phaseOf_of_accepts {s : State} {i : Instr} (h : s.accepts = some i) : i.phaseOf = Phase.absorb := by
  obtain ⟨-, hi⟩ := Option.ite_none_right_eq_some.mp h
  cases hi
  exact phaseOf_decodeCommand _

/-- `INIT`, `BYTE` and `FINAL` clear the digest register (10_state R29, R30). -/
theorem command_clears_digest {i : Instr} {s t : State} (hi : i.phaseOf = Phase.absorb) (hnop : i ≠ .nop)
    (ht : exec i s = .next t) : t.digestValid = false ∧ t.DG = zeroWords := by
  cases i with
  | nop => exact absurd rfl hnop
  | init => cases ht; exact ⟨rfl, rfl⟩
  | byte d =>
    obtain ⟨p, rfl⟩ := exec_byte_next ht
    exact ⟨rfl, rfl⟩
  | final => cases ht; exact ⟨rfl, rfl⟩
  | pad => cases hi
  | load => cases hi
  | round => cases hi
  | update => cases hi
  | finish => cases hi

/-- Settles O34: a core that holds a digest is ready, so an edge changes no register or performs a command or reset. -/
theorem digestHeldUntilTheNextCommand : Obligations.DigestHeldUntilTheNextCommand := by
  intro s t h hv ht
  obtain ⟨hp, -⟩ := h.digest_held hv
  refine ⟨fun hr ha => ?_, fun hclear => ?_⟩
  · obtain ⟨ps, rfl⟩ := (step_sameRegisters hr hp ha ht).exists_eq
    exact ⟨rfl, rfl⟩
  · have hcleared : t.digestValid = false ∧ t.DG = zeroWords := by
      obtain hr | ⟨i, ha, hnop⟩ := hclear
      · rw [step_reset hr] at ht
        cases ht
        exact ⟨rfl, rfl⟩
      · exact command_clears_digest (phaseOf_of_accepts ha) hnop ((step_of_accepts ha).symm.trans ht)
    obtain ⟨hvalid, hDG⟩ := hcleared
    exact ⟨hvalid, fun i => by rw [hDG]; exact zeroWords_getElem i.val i.isLt⟩

/-! ### One block (44_core_sequencer R179) -/

/-- Busy edges are edges of a run when there is no reset. -/
theorem BusyRun.run_eq {k : Nat} {s t : State} (h : BusyRun k s t) (hr : s.noReset k) : run k s = .next t := by
  induction h with
  | refl s => rfl
  | edge hi ht _ ih =>
    have hstep := (step_operation (State.noReset_head hr) hi).trans ht
    exact (run_succ _ hstep).trans (ih (State.noReset_tail hr (exec_inputs ht)))

/-- Settles O39: the 66 edges are busy ones, and what they leave is written out in `afterBlock`. -/
theorem blockIsCompressed : Obligations.BlockIsCompressed := by
  intro s hp hr
  obtain ⟨w, hbusy⟩ := busyRun_block hp
  exact ⟨s.afterBlock w, hbusy.run_eq hr, rfl, rfl, rfl, rfl, rfl, rfl, rfl, rfl, rfl, rfl, rfl, rfl⟩

/-! ### How long the core is busy (44_core_sequencer R184, 70_reset R240) -/

/-- The edges that are left when the block has been folded into `H`: none in mid-message, `FINISH` after the last block,
else a second block of padding (R178). -/
def State.edgesAfterUpdate (s : State) : Nat :=
  if s.fin = false then 0 else if s.last = false then 68 else 1

/-- The number of edges until the core is ready, without reset. -/
def State.edgesToReady (s : State) : Nat :=
  if s.phase = Phase.absorb then 0
  else if s.phase = Phase.pad then (if s.mark = false then finalEdges s.fill.toNat else 68)
  else if s.phase = Phase.load then 66 + s.edgesAfterUpdate
  else if s.phase = Phase.round then 65 - s.rnd.toNat + s.edgesAfterUpdate
  else if s.phase = Phase.update then 1 + s.edgesAfterUpdate
  else 1

section Countdown

variable {s t : State} {i : Instr}

theorem State.edgesAfterUpdate_le (s : State) : s.edgesAfterUpdate ≤ 68 := by
  unfold State.edgesAfterUpdate
  split_ifs <;> omega

/-- The bound of R184 and R240. -/
theorem State.edgesToReady_le (s : State) : s.edgesToReady ≤ 135 := by
  have hupdate := s.edgesAfterUpdate_le
  unfold State.edgesToReady finalEdges
  split_ifs <;> omega

theorem State.edgesToReady_absorb (hp : s.phase = Phase.absorb) : s.edgesToReady = 0 := if_pos hp

theorem State.edgesToReady_pad (hp : s.phase = Phase.pad) :
    s.edgesToReady = if s.mark = false then finalEdges s.fill.toNat else 68 := by
  simp [State.edgesToReady, hp]

theorem State.edgesToReady_load (hp : s.phase = Phase.load) : s.edgesToReady = 66 + s.edgesAfterUpdate := by
  simp [State.edgesToReady, hp]

theorem State.edgesToReady_round (hp : s.phase = Phase.round) :
    s.edgesToReady = 65 - s.rnd.toNat + s.edgesAfterUpdate := by
  simp [State.edgesToReady, hp]

theorem State.edgesToReady_update (hp : s.phase = Phase.update) : s.edgesToReady = 1 + s.edgesAfterUpdate := by
  simp [State.edgesToReady, hp]

theorem State.edgesToReady_finish (hp : s.phase = Phase.finish) : s.edgesToReady = 1 := by
  simp [State.edgesToReady, hp]

/-- The block that `PAD` writes is compressed, and after it comes `FINISH`, or a second `PAD` when the length field did
not fit. -/
theorem edgesToReady_after_pad (h : s.Inv) (hp : s.phase = Phase.pad) (ht : exec .pad s = .next t) :
    t.edgesToReady + 1 = s.edgesToReady := by
  have hfin := h.fin_of_pad hp
  rw [State.edgesToReady_pad hp, State.edgesToReady_load (exec_phase ht)]
  cases hmark : s.mark with
  | false =>
    rw [exec_pad_first hmark] at ht
    cases ht
    by_cases hfits : s.fill.toNat ≤ 55
    · simp [State.edgesAfterUpdate, finalEdges, State.lengthFits, hfin, hfits]
    · simp [State.edgesAfterUpdate, finalEdges, State.lengthFits, hfin, hfits]
  | true =>
    rw [exec_pad_second hmark] at ht
    cases ht
    simp [State.edgesAfterUpdate, hfin]

theorem edgesToReady_after_load (hp : s.phase = Phase.load) (ht : exec .load s = .next t) :
    t.edgesToReady + 1 = s.edgesToReady := by
  rw [State.edgesToReady_load hp, State.edgesToReady_round (exec_phase ht)]
  cases ht
  change 65 + s.edgesAfterUpdate + 1 = 66 + s.edgesAfterUpdate
  omega

/-- After round 63 one edge of the block is left, and before it one edge less for every round. -/
theorem edgesToReady_after_round (hp : s.phase = Phase.round) (ht : exec .round s = .next t) :
    t.edgesToReady + 1 = s.edgesToReady := by
  have hrnd : t.rnd = s.rnd + 1 := by cases ht; rfl
  have hflags : t.edgesAfterUpdate = s.edgesAfterUpdate := by cases ht; rfl
  have hphase : t.phase = s.phaseAfterRound := exec_phase ht
  rw [State.edgesToReady_round hp]
  obtain ⟨hround, hne⟩ | ⟨hupdate, hlast⟩ := s.phaseAfterRound_cases
  · rw [State.edgesToReady_round (hphase.trans hround), hflags, hrnd]
    have hsucc : (s.rnd + 1).toNat = s.rnd.toNat + 1 := by bv_omega
    omega
  · rw [State.edgesToReady_update (hphase.trans hupdate), hflags, hlast]
    change 1 + s.edgesAfterUpdate + 1 = 2 + s.edgesAfterUpdate
    omega

/-- After `UPDATE` a second `PAD` finds the marker written. -/
theorem edgesToReady_after_update (h : s.Inv) (hp : s.phase = Phase.update) (ht : exec .update s = .next t) :
    t.edgesToReady + 1 = s.edgesToReady := by
  have hphase : t.phase = s.phaseAfterUpdate := exec_phase ht
  have hmark : t.mark = s.mark := by cases ht; rfl
  rw [State.edgesToReady_update hp]
  cases hfin : s.fin with
  | false =>
    rw [State.edgesToReady_absorb (hphase.trans (s.phaseAfterUpdate_eq_absorb.mpr hfin))]
    simp [State.edgesAfterUpdate, hfin]
  | true =>
    have hwritten : s.mark = true := h.marker_written hfin (by simp [hp])
    cases hlast : s.last with
    | false =>
      rw [State.edgesToReady_pad (hphase.trans (s.phaseAfterUpdate_eq_pad.mpr ⟨hfin, hlast⟩)), hmark]
      simp [State.edgesAfterUpdate, hfin, hlast, hwritten]
    | true =>
      rw [State.edgesToReady_finish (hphase.trans (s.phaseAfterUpdate_eq_finish.mpr ⟨hfin, hlast⟩))]
      simp [State.edgesAfterUpdate, hfin, hlast]

theorem edgesToReady_after_finish (hp : s.phase = Phase.finish) (ht : exec .finish s = .next t) :
    t.edgesToReady + 1 = s.edgesToReady := by
  rw [State.edgesToReady_finish hp, State.edgesToReady_absorb (exec_phase ht)]

/-- Every busy edge brings the core one edge nearer to ready. -/
theorem edgesToReady_after_busy_edge (h : s.Inv) (hi : decodePhase s.phase = .ok i)
    (ht : exec i s.takeEdge = .next t) : t.edgesToReady + 1 = s.edgesToReady := by
  change _ = s.takeEdge.edgesToReady
  obtain ⟨hp, rfl⟩ | ⟨hp, rfl⟩ | ⟨hp, rfl⟩ | ⟨hp, rfl⟩ | ⟨hp, rfl⟩ := decodePhase_ok hi
  · exact edgesToReady_after_pad h.takeEdge hp ht
  · exact edgesToReady_after_load hp ht
  · exact edgesToReady_after_round hp ht
  · exact edgesToReady_after_update h.takeEdge hp ht
  · exact edgesToReady_after_finish hp ht

/-- An operation is due in every busy state of the invariant: the reserved codes do not occur (R39 (iv)). -/
theorem State.Inv.exists_operation (h : s.Inv) (hp : s.phase ≠ Phase.absorb) : ∃ i, decodePhase s.phase = .ok i := by
  obtain ⟨hsix, hseven⟩ := h.phase_legal
  obtain e | e | e | e | e | e | e | e := Phase.cases s.phase
  · exact absurd e hp
  · exact ⟨.pad, by rw [e, decodePhase_pad]⟩
  · exact ⟨.load, by rw [e, decodePhase_load]⟩
  · exact ⟨.round, by rw [e, decodePhase_round]⟩
  · exact ⟨.update, by rw [e, decodePhase_update]⟩
  · exact ⟨.finish, by rw [e, decodePhase_finish]⟩
  · exact absurd e hsix
  · exact absurd e hseven

end Countdown

/-- From every state of the invariant the busy edges end in a ready core. -/
theorem State.Inv.busyRun_ready {s : State} (h : s.Inv) :
    ∃ t, BusyRun s.edgesToReady s t ∧ t.phase = Phase.absorb := by
  by_cases hp : s.phase = Phase.absorb
  · exact ⟨s, by rw [State.edgesToReady_absorb hp]; exact .refl s, hp⟩
  · obtain ⟨i, hi⟩ := h.exists_operation hp
    obtain ⟨t, ht⟩ := exec_answers i s.takeEdge
    have hless := edgesToReady_after_busy_edge h hi ht
    have hinv : t.Inv := h.takeEdge.of_exec (phaseOf_decodePhase hi).symm ht
    obtain ⟨u, hu, hready⟩ := hinv.busyRun_ready
    exact ⟨u, hless ▸ .edge hi ht hu, hready⟩
termination_by s.edgesToReady
decreasing_by omega

/-- Settles O37: the edges until ready are at most 135 and each busy edge takes one off. -/
theorem busyCoreReturnsToReady : Obligations.BusyCoreReturnsToReady := by
  intro s h hbusy hr
  obtain ⟨t, hrun, hready⟩ := h.busyRun_ready
  have hle := s.edgesToReady_le
  have hshort : s.noReset s.edgesToReady := fun p hp => hr p (List.take_subset_take_left _ hle hp)
  have hpos : s.edgesToReady ≠ 0 := by
    intro hzero
    rw [hzero] at hrun
    cases hrun
    exact hbusy hready
  exact ⟨s.edgesToReady, t, Nat.one_le_iff_ne_zero.mpr hpos, hle, hrun.run_eq hshort, hready⟩

end Sys2Proof.Machine

/-! ## 60_exceptions: what stops the core -/

namespace Sys2Proof.Machine

/-! ### Nothing but a reserved phase code stops the core (60_exceptions R200, R204, R207) -/

/-- Every code that is neither `P_ABSORB` nor reserved selects an operation (30_encoding R75). -/
theorem exists_decodePhase_ok {p : Phase} (hbusy : p ≠ Phase.absorb) (hsix : p ≠ 6#3) (hseven : p ≠ 7#3) :
    ∃ i, decodePhase p = .ok i := by
  obtain rfl | rfl | rfl | rfl | rfl | rfl | rfl | rfl := Phase.cases p
  · exact absurd rfl hbusy
  · exact ⟨.pad, decodePhase_pad⟩
  · exact ⟨.load, decodePhase_load⟩
  · exact ⟨.round, decodePhase_round⟩
  · exact ⟨.update, decodePhase_update⟩
  · exact ⟨.finish, decodePhase_finish⟩
  · exact absurd rfl hsix
  · exact absurd rfl hseven

section Answers

variable {s t : State}

/-- Without reset a ready core idles or performs the command, and a busy core performs its operation (R204). -/
theorem step_answers_of_legal_phase (hr : s.pins.rst = false) (hsix : s.phase ≠ 6#3) (hseven : s.phase ≠ 7#3) :
    ∃ t, step s = .next t := by
  by_cases hready : s.phase = Phase.absorb
  · cases hv : s.pins.cmdValid with
    | false => exact ⟨_, step_idle hr hready hv⟩
    | true => rw [step_command hr hready hv]; exact exec_answers _ _
  · obtain ⟨i, hi⟩ := exists_decodePhase_ok hready hsix hseven
    rw [step_operation hr hi]
    exact exec_answers i _

/-- A step that answers without reset did not start at a reserved code (30_encoding R86). -/
theorem phase_legal_of_step_answers (hr : s.pins.rst = false) (ht : step s = .next t) :
    s.phase ≠ 6#3 ∧ s.phase ≠ 7#3 := by
  rw [← not_or]
  intro hreserved
  obtain ⟨hrefused, -⟩ := reservedPhaseRefusedUntilReset s hreserved
  rw [hrefused hr] at ht
  cases ht

end Answers

/-- Settles O13: reset always answers; without it a legal phase answers and a reserved one is refused. -/
theorem stepAnswersUnlessPhaseReserved : Obligations.StepAnswersUnlessPhaseReserved := by
  intro s
  cases hr : s.pins.rst with
  | true => exact ⟨fun _ => .inl rfl, fun _ => ⟨_, step_reset hr⟩⟩
  | false =>
    constructor
    · rintro ⟨t, ht⟩
      exact .inr (phase_legal_of_step_answers hr ht)
    · rintro (habsurd | ⟨hsix, hseven⟩)
      · cases habsurd
      · exact step_answers_of_legal_phase hr hsix hseven

end Sys2Proof.Machine

/-! ## 70_reset_and_hazards: the reset edge, and the edges a prompt host's call takes -/

namespace Sys2Proof.Machine

/-! ### The reset edge (R225) -/

theorem replicate_zero_get {w n : Nat} (i : Fin n) : (Vector.replicate n (0 : BitVec w))[i] = 0 :=
  Vector.getElem_replicate i.isLt

/-- Settles O8: a reset edge answers `resetRegisters`, whose registers are those of R40. -/
theorem resetEdgeRestoresEveryRegister : Obligations.ResetEdgeRestoresEveryRegister := by
  intro s hr
  exact ⟨s.takeEdge.resetRegisters, step_reset hr,
    fun i => ⟨rfl, replicate_zero_get i, replicate_zero_get i⟩,
    fun j => ⟨replicate_zero_get j, replicate_zero_get j⟩,
    rfl, rfl, rfl, rfl, rfl, rfl, rfl, rfl⟩

/-! ### A block in mid-message brings no digest (40_commands R103, 44_core_sequencer R178) -/

theorem BusyRun.unique {k : Nat} {s t u : State} (ht : BusyRun k s t) (hu : BusyRun k s u) : t = u := by
  induction ht with
  | refl s =>
    cases hu
    rfl
  | edge hi hexec _ ih =>
    cases hu with
    | edge hi' hexec' hu =>
      cases hi.symm.trans hi'
      cases hexec.symm.trans hexec'
      exact ih hu

/-- The busy edges after a byte, none or one block, leave the digest cleared and the byte absorbed. -/
theorem State.Absorbed.byte_without_digest {s t : State} {m : Message} {d : Byte} (h : s.Absorbed m)
    (ht : exec (.byte d) s = .next t) :
    ∃ j u, j + 66 * (m.length / 64) = 66 * ((m.length + 1) / 64) ∧ BusyRun j t u ∧ u.Absorbed (m ++ [d]) ∧
      u.digestValid = false := by
  have hclear := byte_clears_digest ht
  by_cases hfull : m.length % 64 = 63
  · obtain ⟨u, hrun, hu⟩ := h.byte_full hfull ht
    have hload : t.phase = Phase.load := by
      rw [exec_byte_full d (BitVec.eq_of_toNat_eq (h.fill.trans hfull))] at ht
      cases ht
      rfl
    obtain ⟨w, hblock⟩ := busyRun_block hload
    have hdigest : u.digestValid = false := by
      rw [hrun.unique hblock]
      exact hclear
    exact ⟨66, u, by omega, hrun, hu, hdigest⟩
  · exact ⟨0, t, by omega, .refl t, h.byte_room hfull ht, hclear⟩

/-! ### The prompt host (R240) -/

/-- With a host that does `acts`, no digest is shown after `k` edges, for each `k` from `first` and below `bound`. -/
def NoDigest (first bound : Nat) (acts : List HostAction) (s : State) : Prop :=
  ∀ k u, first ≤ k → k < bound → hostRun k acts s = .next u → u.digestValid = false

theorem stalls_nil : Stalls [] := ⟨_, rfl, rfl⟩

theorem callEdges_eq (n : Nat) : callEdges n = n + 66 * (n / 64) + (finalEdges (n % 64) + 1) := by
  unfold callEdges finalEdges
  split <;> omega

namespace NoDigest

variable {j n : Nat} {s t : State} {acts acts' : List HostAction}

theorem zero : NoDigest 0 0 acts s := fun k _ _ hk => absurd hk k.not_lt_zero

/-- One edge leads to a state from which no digest is shown. -/
theorem edge (hstep : ∀ k, hostRun (k + 1) acts s = hostRun k acts' t) (h : NoDigest 0 n acts' t) :
    NoDigest 1 (n + 1) acts s := by
  intro k u hk hkn hu
  obtain ⟨k, rfl⟩ := Nat.exists_eq_add_of_le' hk
  exact h k u k.zero_le (Nat.lt_of_succ_lt_succ hkn) ((hstep k).symm.trans hu)

/-- The state before the first edge, where it holds no digest either. -/
theorem of_invalid (hv : s.digestValid = false) (h : NoDigest 1 n acts s) : NoDigest 0 n acts s := by
  intro k u _ hkn hu
  cases k with
  | zero =>
    cases hu
    exact hv
  | succ k => exact h (k + 1) u k.succ_pos hkn hu

/-- A core that was busy without a digest has none before it is ready again. -/
theorem of_busyRun (hst : BusyRun j s t) (hacts : Stalls acts) (hv : s.phase ≠ Phase.absorb → s.digestValid = false)
    (h : NoDigest 0 n acts t) : NoDigest 0 (j + n) acts s := by
  induction hst with
  | refl s => rwa [Nat.zero_add]
  | @edge j s t u i hi ht _ ih =>
    have hvs : s.digestValid = false := hv (busy_of_decodePhase hi)
    have hstep (k : Nat) : hostRun (k + 1) acts s = hostRun k acts t := by
      rw [Nat.add_comm]
      exact hostRun_busyRun (.single hi ht) hacts hv k
    rw [Nat.add_right_comm]
    exact of_invalid hvs (edge hstep (ih (digestValid_of_busy_edge hi ht hvs) h))

/-- No digest between the first edge of the rest of a call and its `FINISH` edge: the `n` edges left to it are `T` of the
whole message less the edges that the bytes `p` took. -/
theorem rest_of_call {p m : Message} (hs : s.Absorbed p)
    (hn : p.length + 66 * (p.length / 64) + n = callEdges (p ++ m).length) :
    NoDigest 1 n (m.map sendByte ++ [sendFinal]) s := by
  induction m generalizing n s p with
  | nil =>
    obtain ⟨t, ht⟩ := exec_answers .final s.takeEdge
    obtain ⟨u, hbusy, -⟩ := hs.takeEdge.final ht
    have hcount : n = finalEdges (p.length % 64) + 1 := by
      rw [List.append_nil, callEdges_eq] at hn
      exact Nat.add_left_cancel hn
    rw [hcount]
    exact edge (hostRun_present hs.ready (by rw [decodeCommand_final]; exact ht))
      (of_busyRun hbusy stalls_nil (fun _ => final_clears_digest ht) zero)
  | cons d m ih =>
    obtain ⟨t, ht⟩ := exec_answers (.byte d) s.takeEdge
    obtain ⟨j, u, hj, hbusy, hu, hvu⟩ := hs.takeEdge.byte_without_digest ht
    have hacts : Stalls (m.map sendByte ++ [sendFinal]) := by
      cases m <;> exact stalls_present _ _
    have hcall : p ++ d :: m = (p ++ [d]) ++ m := List.append_cons p d m
    have hlen : (p ++ [d]).length = p.length + 1 := List.length_append
    obtain ⟨l, rfl⟩ : ∃ l, n = j + l + 1 := by
      have hle : (p ++ [d]).length ≤ (p ++ d :: m).length := by simp
      rw [callEdges_eq] at hn
      exact ⟨n - (j + 1), by omega⟩
    have hrest : NoDigest 1 l (m.map sendByte ++ [sendFinal]) u := ih hu (by rw [← hcall, hlen]; omega)
    exact edge (hostRun_present hs.ready (by rw [decodeCommand_byte]; exact ht))
      (of_busyRun hbusy hacts (fun _ => byte_clears_digest ht) (of_invalid hvu hrest))

end NoDigest

/-- Settles O43: no digest after any of the edges before the `FINISH` edge, and the digest after that one. -/
theorem promptCallTakesItsEdges : Obligations.PromptCallTakesItsEdges := by
  intro s m hs
  obtain ⟨t, ht, hDG, hv⟩ := hostRun_call hs m stalls_nil
  exact ⟨NoDigest.rest_of_call hs.absorbed (by simp), t, ht, hv, hDG⟩

end Sys2Proof.Machine
